-- ==== Sys2Proof/Word.lean ====
section
/-! DEFINITION. The widths of the block's data: 00_scope.md rules R7, R9 and R12. -/

namespace Sys2Proof

/-- A command word, or the data half of a response word: 32 bits (R7 `CMD_WIDTH`, R57). -/
abbrev Word := BitVec 32

/-- A symbol: a 21-bit codepoint, compared as a number (R7 `SYMBOL_WIDTH`, R12). -/
abbrev Codepoint := BitVec 21

/-- A value: the 6-bit number a symbol stands for, and so a table index (R7 `VALUE_WIDTH`, R18). -/
abbrev Value := BitVec 6

/-- A data byte: 8 bits (R7 `BYTE_WIDTH`). -/
abbrev Byte := BitVec 8

/-- A 24-bit group: three bytes, four values (R7 `GROUP_WIDTH`). -/
abbrev Group := BitVec 24

/-- A CSR number: 4 bits (R21). -/
abbrev CsrNum := BitVec 4

/-- The data field of `CSRW`: 16 bits (R52). -/
abbrev Imm := BitVec 16

/-- A table of 64 symbols, indexed by value (R7 `TABLE_SIZE`, R18). -/
abbrev Table := Vector Codepoint 64

end Sys2Proof
end

