-- ==== Sys2Proof/Syntax.lean ====
section
/-! DEFINITION. The commands of the opcode table, one constructor each (30_encoding.md R47 to R53),
and the names of the reasons a word is no command (R54). -/

namespace Sys2Proof

/-- The eleven commands of `opcode_table.json`, with their operand fields (R53). -/
inductive Instr where
  /-- `TBLW idx, sym` (R66): write one table entry. -/
  | tblw (idx : Value) (sym : Codepoint)
  /-- `TBLR idx` (R67): read one table entry. -/
  | tblr (idx : Value)
  /-- `LOOKUP sym` (R68): reverse lookup of one symbol. -/
  | lookup (sym : Codepoint)
  /-- `STDTBL` (R69): load the standard alphabet. -/
  | stdtbl
  /-- `EBYTE b` (R75): feed one byte to the encoder. -/
  | ebyte (b : Byte)
  /-- `EEND` (R76): end the encoder message. -/
  | eend
  /-- `DSYM sym` (R80): feed one symbol to the decoder. -/
  | dsym (sym : Codepoint)
  /-- `DEND` (R81): end the decoder message. -/
  | dend
  /-- `ABORT` (R85): drop both open messages. -/
  | abort
  /-- `CSRR csr` (R87): read a CSR. -/
  | csrr (csr : CsrNum)
  /-- `CSRW csr, imm` (R88): write a CSR. -/
  | csrw (csr : CsrNum) (imm : Imm)
deriving DecidableEq, Repr

/-- Why a word is illegal: one constructor for each condition of R54. -/
inductive DecodeError where
  /-- R54 condition 1: the opcode is 0x0 or one of 0xC..0xF. -/
  | opcode
  /-- R54 condition 2: a reserved field of the word's format is not 0. -/
  | reserved
  /-- R54 condition 3: the symbol field of a `TBLR` is not 0. -/
  | tblrSym
  /-- R54 condition 4: the data field of a `CSRR` is not 0. -/
  | csrrImm
  /-- R54 conditions 4 and 5: a CSR number that the command may not name. -/
  | csrNumber
deriving DecidableEq, Repr

end Sys2Proof
end

