-- ==== Sys2Proof/WellFormed.lean ====
section
/-! DEFINITION. Which instructions have a legal encoding: 30_encoding.md R52 and R54. Every other operand
is exactly as wide as its field, so only the CSR numbers are checked. -/

namespace Sys2Proof

/-- R52: the legal `csr` values are 0..3 for `CSRR` and 0..1 for `CSRW`. -/
def Instr.wellFormed : Instr → Bool
  | .tblw _ _ => true
  | .tblr _ => true
  | .lookup _ => true
  | .stdtbl => true
  | .ebyte _ => true
  | .eend => true
  | .dsym _ => true
  | .dend => true
  | .abort => true
  | .csrr csr => decide (csr.toNat < 4)
  | .csrw csr _ => decide (csr.toNat < 2)

end Sys2Proof
end

