-- ==== Sys2Proof/Decode.lean ====
section
/-! DEFINITION. Decode of a command word, total on all 32-bit words (30_encoding.md R56), and the encoder
(R48 to R52). -/

namespace Sys2Proof

/-! ## Fields of a word (R47, R53) -/

/-- `op = w[31:28]` (R47). -/
def opField (w : Word) : BitVec 4 := w.extractLsb' 28 4

/-- `idx = w[27:22]` (R48). -/
def idxField (w : Word) : Value := w.extractLsb' 22 6

/-- `sym = w[20:0]` (R48, R49). -/
def symField (w : Word) : Codepoint := w.extractLsb' 0 21

/-- `byte = w[7:0]` (R50). -/
def byteField (w : Word) : Byte := w.extractLsb' 0 8

/-- `csr = w[27:24]` (R52). -/
def csrField (w : Word) : CsrNum := w.extractLsb' 24 4

/-- `imm = w[15:0]` (R52). -/
def immField (w : Word) : Imm := w.extractLsb' 0 16

/-- The reserved bit 21 of format T (R48). -/
def reservedT (w : Word) : BitVec 1 := w.extractLsb' 21 1

/-- The reserved bits 27:21 of format S (R49). -/
def reservedS (w : Word) : BitVec 7 := w.extractLsb' 21 7

/-- The reserved bits 27:8 of format B (R50). -/
def reservedB (w : Word) : BitVec 20 := w.extractLsb' 8 20

/-- The reserved bits 27:0 of format N (R51). -/
def reservedN (w : Word) : BitVec 28 := w.extractLsb' 0 28

/-- The reserved bits 23:16 of format C (R52). -/
def reservedC (w : Word) : BitVec 8 := w.extractLsb' 16 8

/-! ## The arms of R56 -/

/-- Format T, `TBLW`. -/
def decodeTblw (w : Word) : Except DecodeError Instr :=
  if reservedT w ≠ 0 then .error .reserved else .ok (.tblw (idxField w) (symField w))

/-- Format T, `TBLR`: the symbol field must be 0 too (R54 condition 3). -/
def decodeTblr (w : Word) : Except DecodeError Instr :=
  if reservedT w ≠ 0 then .error .reserved
  else if symField w ≠ 0 then .error .tblrSym
  else .ok (.tblr (idxField w))

/-- Format S. -/
def decodeS (w : Word) (mk : Codepoint → Instr) : Except DecodeError Instr :=
  if reservedS w ≠ 0 then .error .reserved else .ok (mk (symField w))

/-- Format B. -/
def decodeB (w : Word) : Except DecodeError Instr :=
  if reservedB w ≠ 0 then .error .reserved else .ok (.ebyte (byteField w))

/-- Format N. -/
def decodeN (w : Word) (i : Instr) : Except DecodeError Instr :=
  if reservedN w ≠ 0 then .error .reserved else .ok i

/-- Format C, `CSRR`: the data field must be 0 and the number below 4 (R54 condition 4). -/
def decodeCsrr (w : Word) : Except DecodeError Instr :=
  if reservedC w ≠ 0 then .error .reserved
  else if immField w ≠ 0 then .error .csrrImm
  else if 4 ≤ (csrField w).toNat then .error .csrNumber
  else .ok (.csrr (csrField w))

/-- Format C, `CSRW`: the number must be below 2 (R54 condition 5). -/
def decodeCsrw (w : Word) : Except DecodeError Instr :=
  if reservedC w ≠ 0 then .error .reserved
  else if 2 ≤ (csrField w).toNat then .error .csrNumber
  else .ok (.csrw (csrField w) (immField w))

/-- R56: the command a word is, or the name of what makes it illegal. -/
def decode (w : Word) : Except DecodeError Instr :=
  match (opField w).toNat with
  | 0x1 => decodeTblw w
  | 0x2 => decodeTblr w
  | 0x3 => decodeS w .lookup
  | 0x4 => decodeN w .stdtbl
  | 0x5 => decodeB w
  | 0x6 => decodeN w .eend
  | 0x7 => decodeS w .dsym
  | 0x8 => decodeN w .dend
  | 0x9 => decodeN w .abort
  | 0xA => decodeCsrr w
  | 0xB => decodeCsrw w
  | _ => .error .opcode

/-! ## The encoder -/

/-- The word of a command, as R48 to R52 write it. On a `CSRR` or `CSRW` that is not well formed it gives the
illegal word with that number in its `csr` field. -/
def encode : Instr → Word
  | .tblw idx sym => 0x1#32 <<< 28 ||| idx.setWidth 32 <<< 22 ||| sym.setWidth 32
  | .tblr idx => 0x2#32 <<< 28 ||| idx.setWidth 32 <<< 22
  | .lookup sym => 0x3#32 <<< 28 ||| sym.setWidth 32
  | .stdtbl => 0x40000000#32
  | .ebyte b => 0x5#32 <<< 28 ||| b.setWidth 32
  | .eend => 0x60000000#32
  | .dsym sym => 0x7#32 <<< 28 ||| sym.setWidth 32
  | .dend => 0x80000000#32
  | .abort => 0x90000000#32
  | .csrr csr => 0xA#32 <<< 28 ||| csr.setWidth 32 <<< 24
  | .csrw csr imm => 0xB#32 <<< 28 ||| csr.setWidth 32 <<< 24 ||| imm.setWidth 32

/-! ## The host's way of naming a word -/

/-- The command word whose low `nbits` bits are those of `w` and whose other bits are 0. A command is one
32-bit unit on the port (R35, R46), so no byte order comes in. -/
def tableWord (nbits w : Nat) : Word := BitVec.ofNat 32 (w % 2 ^ nbits)

/-- What the decoder reads from `tableWord nbits w`; none where it refuses. -/
def decodeTableWord (nbits w : Nat) : Option Instr := (decode (tableWord nbits w)).toOption

end Sys2Proof
end

