-- ==== Sys2Proof/Config.lean ====
section
/-! DEFINITION. The parameters a model takes (00_scope.md R3, R8) and the one free value, `dup_draw`. -/

namespace Sys2Proof

/-- The decode mode, the block's one switch (R3, R23). -/
inductive Mode where
  /-- 0: invalid symbols and a truncated tail are errors; the mode after reset. -/
  | strict
  /-- 1: an unknown symbol has value 0 and a 1-symbol tail emits one byte. -/
  | lenient
deriving DecidableEq, Repr

namespace Config

/-- R2: the hardware's only name. -/
def hardwareName : String := "basemoji-codec"

/-- The open parameters of R8 that are data. A run never changes them (R15).
They are held in `State.params`, so that statements are about every block the spec admits (log 1). -/
structure Params where
  /-- `RSPQ_DEPTH`: the capacity of the response queue, at least 4. -/
  rspqDepth : Nat
  /-- `STD_ALPHABET`: what reset and `STDTBL` load, in value order. -/
  stdAlphabet : Table
deriving DecidableEq, Repr

/-- R61: value `i` maps to U+1F600 + i. DESIGN CHOICE of the spec (92_eei_decisions.md D7; log 2). -/
def defaultAlphabet : Table := Vector.ofFn fun i => BitVec.ofNat 21 (0x1F600 + i.val)

/-- R8: the defaults of 95_test_vectors.md. -/
def defaultParams : Params := { rspqDepth := 8, stdAlphabet := defaultAlphabet }

/-- What a draw may depend on beside the table and the symbol: the block's other registers as the
command finds them. R8: "any function of the state and symbol"; R37 keeps the queue out of it (log 3). -/
structure DrawPoint where
  g : Group
  ecnt : Fin 3
  eopen : Bool
  dprev : Value
  dcnt : Fin 4
  dopen : Bool
  dfail : Bool
  mode : Mode
  err : Bool
  errCause : BitVec 4
  errVal : Word
deriving DecidableEq, Repr

/-- `dup_draw` (R8, R63, R64): the value of a reverse lookup that several entries match. A FREE VALUE:
no body, so nothing can be proved of it (log 3). -/
opaque dupDraw : Table → DrawPoint → Codepoint → Value

end Config

end Sys2Proof
end

