-- ==== Sys2Proof/Machine/State.lean ====
section
/-! DEFINITION. The state of the block (10_state.md), its response words (30_encoding.md R57), the host's
actions (70_reset_and_hazards.md R122), the stops, and reset (R113). -/

namespace Sys2Proof.Machine

/-- The causes of an error (60_exceptions.md R99). -/
inductive Cause where
  /-- 1: `DSYM` in strict mode, symbol in no table entry. -/
  | invalidSymbol
  /-- 2: `DEND` in strict mode, message of `4k + 1` symbols. -/
  | truncatedInput
  /-- 3: a word that R54 calls illegal. -/
  | illegalCommand
  /-- 4: `TBLW`, `STDTBL` or `CSRW CTRL` while a message is open. -/
  | busy
deriving DecidableEq, Repr

/-- The kinds of response the block emits (R57). The block never emits another. -/
inductive RspKind where
  /-- 0x1: an encoded symbol. -/
  | sym
  /-- 0x2: a decoded byte. -/
  | byte
  /-- 0x3: the answer of `LOOKUP`. -/
  | val
  /-- 0x4: the answer of `TBLR` and `CSRR`. -/
  | data
  /-- 0x5: an error. -/
  | err
  /-- 0x6: the end of a decoder message. -/
  | done
deriving DecidableEq, Repr

/-- A response word (R57): its kind and its 32 data bits. `Response.toWord` gives the 36 bits. -/
structure Response where
  kind : RspKind
  data : Word
deriving DecidableEq, Repr

/-- What the host can do to the block (R14, R122). -/
inductive HostAction where
  /-- Put a command word on the command port (R46). -/
  | issue (w : Word)
  /-- Take the head of the response queue (R117). -/
  | pop
  /-- Assert reset (R112). -/
  | reset
deriving DecidableEq, Repr

/-- Why the machine stops. -/
inductive Fault where
  /-- Raised by `step` when the command at the port is held (R116) and the host's next action is neither a
  pop nor a reset: "A host that never pops while a command is held hangs the port" (R116), "`stuck`"
  (93_implementation_defined.md I9). Safe: no state follows. -/
  | portHung
deriving DecidableEq, Repr

/-- Why the model gives a step no meaning. -/
inductive Refusal where
  /-- A command of the table that the model does not execute. No arm uses it. Safe. -/
  | notModelled (mnemonic : String)
  /-- Raised by `step` when the host's next action is a pop and the queue is empty: "no such step exists"
  (I10, R117). Safe. -/
  | popEmpty
deriving DecidableEq, Repr

/-- The whole state. The first group is the block's (R18 to R26, R30, R46), the second the model's own. -/
structure State where
  /-- The parameters of R8: configuration, never changed (R15; log 1). -/
  params : Config.Params
  /-- `FWD`, the symbol table (R18). -/
  fwd : Table
  /-- `G`, the group being assembled (R19). -/
  g : Group
  /-- `ECNT`, bytes held in `G`: 0, 1 or 2 (R19; log 7). -/
  ecnt : Fin 3
  /-- `EOPEN`: an encoder message is open (R19). -/
  eopen : Bool
  /-- `DPREV`, the value of the last symbol of the current group (R20). -/
  dprev : Value
  /-- `DCNT`, symbols of the current group accepted: 0 to 3 (R20; log 7). -/
  dcnt : Fin 4
  /-- `DOPEN`: a decoder message is open (R20). -/
  dopen : Bool
  /-- `DFAIL`: the open decoder message has failed (R20). -/
  dfail : Bool
  /-- `CTRL.MODE` (R23). -/
  mode : Mode
  /-- `STATUS.ERR`, sticky (R24, R27). -/
  err : Bool
  /-- `ERRCAUSE.CAUSE` (R25). -/
  errCause : BitVec 4
  /-- `ERRVAL` (R26). -/
  errVal : Word
  /-- `RSPQ`, head first (R30). -/
  rspq : List Response
  /-- The command port: the word issued and not yet accepted (R46, R112, R116). -/
  port : Option Word
  /-- What the host does next, in order (R122; log 5). -/
  host : List HostAction
  /-- What the host has popped, oldest first: the observation of R122 (log 5). -/
  popped : List Response
deriving DecidableEq, Repr

/-- The state reset leaves under parameters `p` (R113), with an empty port (R112). -/
def State.resetWith (p : Config.Params) : State where
  params := p
  fwd := p.stdAlphabet
  g := 0
  ecnt := 0
  eopen := false
  dprev := 0
  dcnt := 0
  dopen := false
  dfail := false
  mode := .strict
  err := false
  errCause := 0
  errVal := 0
  rspq := []
  port := none
  host := []
  popped := []

/-- The machine right after reset, with the default parameters of R8. -/
def State.reset : State := State.resetWith Config.defaultParams

end Sys2Proof.Machine
end

