-- ==== Sys2Proof/Machine/Flags.lean ====
section
/-! DEFINITION. The one flag, `STATUS.ERR`, with its first-error record (10_state.md R24 to R27,
60_exceptions.md R99, R100), and what a CSR reads as (43_control.md R86). -/

namespace Sys2Proof.Machine

/-- The cause codes (R99). -/
def Cause.code : Cause → BitVec 4
  | .invalidSymbol => 1
  | .truncatedInput => 2
  | .illegalCommand => 3
  | .busy => 4

/-- The mode bit as `CTRL` holds it (R23). -/
def modeBit : Mode → BitVec 1
  | .strict => 0
  | .lenient => 1

/-- The mode a written bit selects (R23). -/
def modeOfBit (b : Bool) : Mode := if b then .lenient else .strict

/-- R100 without its response: the first error since a clear is recorded, and `ERR` is set. -/
def State.recordError (c : Cause) (info : Word) (s : State) : State :=
  if s.err then s else { s with err := true, errCause := c.code, errVal := info }

/-- R88: writing 1 to `STATUS.ERR` clears the flag and its record. -/
def State.clearError (s : State) : State :=
  { s with err := false, errCause := 0, errVal := 0 }

/-- A flag as one bit of a 32-bit word. -/
def flagBit (b : Bool) : Word := if b then 1 else 0

/-- `STATUS` as software reads it (R24, R86). -/
def State.statusWord (s : State) : Word :=
  BitVec.ofNat 32 s.dcnt.val <<< 6 ||| BitVec.ofNat 32 s.ecnt.val <<< 4 ||| flagBit s.dfail <<< 3
    ||| flagBit s.dopen <<< 2 ||| flagBit s.eopen <<< 1 ||| flagBit s.err

/-- `csrval` (R86); none for the unassigned numbers 4..15 (R21). -/
def State.csrval (s : State) (csr : CsrNum) : Option Word :=
  match csr.toNat with
  | 0 => some ((modeBit s.mode).setWidth 32)
  | 1 => some s.statusWord
  | 2 => some (s.errCause.setWidth 32)
  | 3 => some s.errVal
  | _ => none

end Sys2Proof.Machine
end

