-- ==== Sys2Proof/Machine/Operands.lean ====
section
/-! DEFINITION. The datapath a command's operands go through: the two lookups (40_table.md R62 to R64), the
bit-slice stage (41_encode.md R70) and the bit-pack stage (42_decode.md R77, R78). -/

namespace Sys2Proof.Machine

/-! ## Lookups -/

/-- The forward lookup `FWD[v]` (R62): total, every 6-bit value has an entry. -/
def tableAt (fwd : Table) (v : Value) : Codepoint := fwd[v.toNat]'v.isLt

/-- `FWD[v] <- s` (R66). -/
def tableSet (fwd : Table) (v : Value) (s : Codepoint) : Table := fwd.set v.toNat s v.isLt

/-- The 64 values, in order. -/
def allValues : List Value := (List.range 64).map (BitVec.ofNat 6)

/-- The set `M` of R63: the values whose entry is `s`. -/
def matching (fwd : Table) (s : Codepoint) : List Value :=
  allValues.filter fun v => tableAt fwd v == s

/-- The registers a draw may depend on (R8; log 3). -/
def State.drawPoint (s : State) : Config.DrawPoint where
  g := s.g
  ecnt := s.ecnt
  eopen := s.eopen
  dprev := s.dprev
  dcnt := s.dcnt
  dopen := s.dopen
  dfail := s.dfail
  mode := s.mode
  err := s.err
  errCause := s.errCause
  errVal := s.errVal

/-- The reverse lookup `(hit, v)` (R63). Several matches: a hit with the free value (R64). -/
def State.lookup (s : State) (sym : Codepoint) : Bool × Value :=
  match matching s.fwd sym with
  | [] => (false, 0)
  | [v] => (true, v)
  | _ :: _ :: _ => (true, Config.dupDraw s.fwd s.drawPoint sym)

/-- The value of a symbol in the decoder (R77); none where the symbol is invalid. -/
def State.symbolValue (s : State) (sym : Codepoint) : Option Value :=
  match s.lookup sym, s.mode with
  | (true, v), _ => some v
  | (false, _), .lenient => some 0
  | (false, _), .strict => none

/-! ## The bit-slice stage -/

/-- `G[23:18]` (R70). -/
def lane0 (g : Group) : Value := g.extractLsb' 18 6

/-- `G[17:12]`. -/
def lane1 (g : Group) : Value := g.extractLsb' 12 6

/-- `G[11:6]`. -/
def lane2 (g : Group) : Value := g.extractLsb' 6 6

/-- `G[5:0]`. -/
def lane3 (g : Group) : Value := g.extractLsb' 0 6

/-- `slice(G)` (R70), most significant value first. -/
def slice (g : Group) : List Value := [lane0 g, lane1 g, lane2 g, lane3 g]

/-- The first byte of a group, in place (R75): the group's other bytes are 0. -/
def putByte0 (b : Byte) : Group := b.setWidth 24 <<< 16

/-- The second byte joins the group (R75). -/
def putByte1 (g : Group) (b : Byte) : Group := g ||| (b.setWidth 24 <<< 8)

/-- The third byte joins the group (R75). -/
def putByte2 (g : Group) (b : Byte) : Group := g ||| b.setWidth 24

/-! ## The bit-pack stage (R78): the byte two neighbouring values of a group make, low 8 bits kept -/

/-- `trunc_8((v1 << 2) | (v2 >> 4))`. -/
def packByte0 (v1 v2 : Value) : Byte := (v1.setWidth 8 <<< 2) ||| (v2.setWidth 8 >>> 4)

/-- `trunc_8((v2 << 4) | (v3 >> 2))`. -/
def packByte1 (v2 v3 : Value) : Byte := (v2.setWidth 8 <<< 4) ||| (v3.setWidth 8 >>> 2)

/-- `trunc_8((v3 << 6) | v4)`. -/
def packByte2 (v3 v4 : Value) : Byte := (v3.setWidth 8 <<< 6) ||| v4.setWidth 8

end Sys2Proof.Machine
end

