-- ==== Sys2Proof/Machine/Ops.lean ====
section
/-! DEFINITION. The shared operations: emitting a response (30_encoding.md R57), the error procedure
(60_exceptions.md R100) with the busy test (R102), ending a message, and the host's pop, issue and reset
(70_reset_and_hazards.md R112, R116, R117). -/

namespace Sys2Proof.Machine

/-! ## Response words -/

/-- The kind codes of R57. -/
def RspKind.code : RspKind → BitVec 4
  | .sym => 1
  | .byte => 2
  | .val => 3
  | .data => 4
  | .err => 5
  | .done => 6

/-- The 36 bits of a response: `kind` in 35:32, `data` in 31:0 (R57). -/
def Response.toWord (r : Response) : BitVec 36 := r.kind.code.setWidth 36 <<< 32 ||| r.data.setWidth 36

/-- `{SYM, zext_32(c)}`. -/
def Response.ofSym (c : Codepoint) : Response := { kind := .sym, data := c.setWidth 32 }

/-- `{BYTE, zext_32(b)}`. -/
def Response.ofByte (b : Byte) : Response := { kind := .byte, data := b.setWidth 32 }

/-- `{VAL, zext_32(hit << 8 | v)}` (R68). -/
def Response.ofLookup (hit : Bool) (v : Value) : Response :=
  { kind := .val, data := flagBit hit <<< 8 ||| v.setWidth 32 }

/-- `{DATA, d}`. -/
def Response.ofData (d : Word) : Response := { kind := .data, data := d }

/-- `{ERR, zext_32(c)}`. -/
def Response.ofCause (c : Cause) : Response := { kind := .err, data := c.code.setWidth 32 }

/-- `{DONE, zext_32(status)}`. -/
def Response.ofStatus (status : BitVec 4) : Response := { kind := .done, data := status.setWidth 32 }

/-- `emit` (R11): append one response at the tail of `RSPQ`. -/
def State.emit (r : Response) (s : State) : State := { s with rspq := s.rspq ++ [r] }

/-- `emit(SYM, zext_32(FWD[v]))` (R75, R76). -/
def State.emitValue (v : Value) (s : State) : State := s.emit (.ofSym (tableAt s.fwd v))

/-! ## Errors -/

/-- The error procedure (R100): record the first error, set `STATUS.ERR`, emit `ERR`. It is all of taking an
error; there is no trap (R105). `raise` ends the command with this state, `report` goes on from it (R11). -/
def State.report (c : Cause) (info : Word) (s : State) : State :=
  (s.recordError c info).emit (.ofCause c)

/-- `busy` (R102): a message is open. -/
def State.busy (s : State) : Bool := s.eopen || s.dopen

/-! ## Messages -/

/-- `G <- 0 ; ECNT <- 0 ; EOPEN <- 0` (R76, R85). -/
def State.closeEncoder (s : State) : State := { s with g := 0, ecnt := 0, eopen := false }

/-- `DPREV <- 0 ; DCNT <- 0 ; DOPEN <- 0 ; DFAIL <- 0` (R81, R85). -/
def State.closeDecoder (s : State) : State :=
  { s with dprev := 0, dcnt := 0, dopen := false, dfail := false }

/-! ## The port and the host -/

/-- R116: four slots of the response queue are free. -/
def State.hasRoom (s : State) : Bool := decide (4 ≤ s.params.rspqDepth - s.rspq.length)

/-- The command word `w` on the port (R46). -/
def State.placeWord (s : State) (w : Word) : State := { s with port := some w }

/-- The command at the port is consumed when it executes (R43). -/
def State.takeWord (s : State) : State := { s with port := none }

/-- The host pops the head of the queue (R117); of an empty queue there is no such step (I10). -/
def hostPop (s : State) : Host.Outcome State Fault Refusal :=
  match s.rspq with
  | [] => .refused .popEmpty
  | r :: q => .next { s with rspq := q, popped := s.popped ++ [r] }

/-- Reset (R112, R113): every register of the block; the word at the port and the queued responses are lost.
The parameters, the host's further actions and what it has popped are no state of the block. -/
def State.hostReset (s : State) : State :=
  { State.resetWith s.params with host := s.host, popped := s.popped }

end Sys2Proof.Machine
end

