-- ==== Sys2Proof/Machine/Control.lean ====
section
/-! DEFINITION. The control commands (43_control.md): `ABORT`, `CSRR`, `CSRW`. -/

namespace Sys2Proof.Machine

/-- `ABORT` (R85): both messages are dropped; the error record and the queue stay. -/
def execAbort (s : State) : Host.Outcome State Fault Refusal :=
  .next s.closeEncoder.closeDecoder

/-- `CSRR csr` (R87). An unassigned number raises `IllegalCommand` (R21). -/
def execCsrr (csr : CsrNum) (s : State) : Host.Outcome State Fault Refusal :=
  match s.csrval csr with
  | some d => .next (s.emit (.ofData d))
  | none => .next (s.report .illegalCommand (encode (.csrr csr)))

/-- `CSRW csr, imm` (R88). A number above 1 raises `IllegalCommand` (R21). -/
def execCsrw (csr : CsrNum) (imm : Imm) (s : State) : Host.Outcome State Fault Refusal :=
  match csr.toNat with
  | 0 =>
    if s.busy then .next (s.report .busy (encode (.csrw csr imm)))
    else .next { s with mode := modeOfBit (imm.getLsbD 0) }
  | 1 => if imm.getLsbD 0 then .next s.clearError else .next s
  | _ => .next (s.report .illegalCommand (encode (.csrw csr imm)))

end Sys2Proof.Machine
end

