-- ==== Sys2Proof/Machine/Decoder.lean ====
section
/-! DEFINITION. The decoder commands (42_decode.md): `DSYM`, `DEND`. -/

namespace Sys2Proof.Machine

/-- One accepted value in the current group (R80): the first opens the group, each later one completes a
byte with the value before it. -/
def State.takeValue (v : Value) (s : State) : State :=
  match s.dcnt with
  | 0 => { s with dprev := v, dcnt := 1 }
  | 1 => { s.emit (.ofByte (packByte0 s.dprev v)) with dprev := v, dcnt := 2 }
  | 2 => { s.emit (.ofByte (packByte1 s.dprev v)) with dprev := v, dcnt := 3 }
  | 3 => { s.emit (.ofByte (packByte2 s.dprev v)) with dprev := 0, dcnt := 0 }

/-- `DSYM sym` (R80). A failed message ignores the symbol; in strict mode an unknown symbol fails it. -/
def execDsym (sym : Codepoint) (s : State) : Host.Outcome State Fault Refusal :=
  if s.dfail then .next { s with dopen := true }
  else match s.symbolValue sym with
    | none => .next (({ s with dopen := true, dfail := true } : State).report .invalidSymbol (sym.setWidth 32))
    | some v => .next (({ s with dopen := true } : State).takeValue v)

/-- What `DEND` does before `DONE`, and the message status (R81). A 1-symbol tail is `TruncatedInput` in
strict mode and one byte in lenient mode. -/
def State.settleTail (s : State) : State × BitVec 4 :=
  if s.dfail then (s, 1)
  else if s.dcnt = 1 then
    match s.mode with
    | .strict => (s.report .truncatedInput (s.dprev.setWidth 32), 2)
    | .lenient => (s.emit (.ofByte (packByte0 s.dprev 0)), 0)
  else (s, 0)

/-- `DEND` (R81): settle the tail, emit `DONE`, and leave the decoder as reset left it. -/
def execDend (s : State) : Host.Outcome State Fault Refusal :=
  .next (s.settleTail.1.emit (.ofStatus s.settleTail.2)).closeDecoder

end Sys2Proof.Machine
end

