-- ==== Sys2Proof/Machine/Encoder.lean ====
section
/-! DEFINITION. The encoder commands (41_encode.md): `EBYTE`, `EEND`. -/

namespace Sys2Proof.Machine

/-- The third byte of a group (R75): the four symbols leave, most significant value first, and `G` empties. -/
def State.emitGroup (g : Group) (s : State) : State :=
  { (((s.emitValue (lane0 g)).emitValue (lane1 g)).emitValue (lane2 g)).emitValue (lane3 g) with
    g := 0, ecnt := 0 }

/-- `EBYTE b` (R75). -/
def execEbyte (b : Byte) (s : State) : Host.Outcome State Fault Refusal :=
  match s.ecnt with
  | 0 => .next { s with eopen := true, g := putByte0 b, ecnt := 1 }
  | 1 => .next { s with eopen := true, g := putByte1 s.g b, ecnt := 2 }
  | 2 => .next (({ s with eopen := true } : State).emitGroup (putByte2 s.g b))

/-- `EEND` (R76): the tail of 0, 1 or 2 bytes, then the encoder is as reset left it. The zero-fill of the
last value is in `G` (R28). -/
def execEend (s : State) : Host.Outcome State Fault Refusal :=
  match s.ecnt with
  | 0 => .next s.closeEncoder
  | 1 => .next ((s.emitValue (lane0 s.g)).emitValue (lane1 s.g)).closeEncoder
  | 2 => .next (((s.emitValue (lane0 s.g)).emitValue (lane1 s.g)).emitValue (lane2 s.g)).closeEncoder

end Sys2Proof.Machine
end

