-- ==== Sys2Proof/Machine/Table.lean ====
section
/-! DEFINITION. The symbol-table commands (40_table.md): `TBLW`, `TBLR`, `LOOKUP`, `STDTBL`. -/

namespace Sys2Proof.Machine

/-- `TBLW idx, sym` (R66). The record of `Busy` is the command word, which is the encoding of the command,
since a legal word is the only one of its command (R54; log 4). -/
def execTblw (idx : Value) (sym : Codepoint) (s : State) : Host.Outcome State Fault Refusal :=
  if s.busy then .next (s.report .busy (encode (.tblw idx sym)))
  else .next { s with fwd := tableSet s.fwd idx sym }

/-- `TBLR idx` (R67). -/
def execTblr (idx : Value) (s : State) : Host.Outcome State Fault Refusal :=
  .next (s.emit (.ofData ((tableAt s.fwd idx).setWidth 32)))

/-- `LOOKUP sym` (R68): a miss is no error in either mode. -/
def execLookup (sym : Codepoint) (s : State) : Host.Outcome State Fault Refusal :=
  .next (s.emit (.ofLookup (s.lookup sym).1 (s.lookup sym).2))

/-- `STDTBL` (R69): all 64 entries in one step. -/
def execStdtbl (s : State) : Host.Outcome State Fault Refusal :=
  if s.busy then .next (s.report .busy (encode .stdtbl))
  else .next { s with fwd := s.params.stdAlphabet }

end Sys2Proof.Machine
end

