-- ==== Sys2Proof/Machine/Dispatch.lean ====
section
/-! DEFINITION. One arm per command, each one direct call of its meaning. -/

namespace Sys2Proof.Machine

/-- What a command does to the state it finds (20_memory.md R40: one indivisible step). -/
def exec (i : Instr) (s : State) : Host.Outcome State Fault Refusal :=
  match i with
  | .tblw idx sym => Sys2Proof.Machine.execTblw idx sym s
  | .tblr idx => Sys2Proof.Machine.execTblr idx s
  | .lookup sym => Sys2Proof.Machine.execLookup sym s
  | .stdtbl => Sys2Proof.Machine.execStdtbl s
  | .ebyte b => Sys2Proof.Machine.execEbyte b s
  | .eend => Sys2Proof.Machine.execEend s
  | .dsym sym => Sys2Proof.Machine.execDsym sym s
  | .dend => Sys2Proof.Machine.execDend s
  | .abort => Sys2Proof.Machine.execAbort s
  | .csrr csr => Sys2Proof.Machine.execCsrr csr s
  | .csrw csr imm => Sys2Proof.Machine.execCsrw csr imm s

end Sys2Proof.Machine
end

