-- ==== Sys2Proof/Machine/Port.lean ====
section
/-! DEFINITION. Who moves next, and how (10_state.md R14, 70_reset_and_hazards.md R112, R116, R117, R121). -/

namespace Sys2Proof.Machine

/-- One word, accepted: decoded by R56 and executed, or `IllegalCommand` with the word as its record and
nothing else (R54, R101). -/
def runWord (w : Word) (s : State) : Host.Outcome State Fault Refusal :=
  match decode w with
  | .ok i => exec i s
  | .error _ => .next (s.report .illegalCommand w)

/-- The host's turn while the port is empty (R122). With no action left the block waits for a command
(R114; log 5). -/
def hostTurn (s : State) : Host.Outcome State Fault Refusal :=
  match s.host with
  | [] => .next s
  | .issue w :: rest => .next { s.placeWord w with host := rest }
  | .pop :: rest => hostPop { s with host := rest }
  | .reset :: rest => .next ({ s with host := rest } : State).hostReset

/-- The host's turn while a command is held: only a pop or reset can come (R116). A port that no pop or
reset will free is stuck (I9). -/
def heldTurn (s : State) : Host.Outcome State Fault Refusal :=
  match s.host with
  | [] => .fault .portHung
  | .issue _ :: _ => .fault .portHung
  | .pop :: rest => hostPop { s with host := rest }
  | .reset :: rest => .next ({ s with host := rest } : State).hostReset

/-- One step: the block accepts the command at the port as soon as there is room (R116, R121; log 6),
otherwise the host moves. -/
def portStep (s : State) : Host.Outcome State Fault Refusal :=
  match s.port with
  | none => hostTurn s
  | some w => if s.hasRoom then runWord w s.takeWord else heldTurn s

end Sys2Proof.Machine
end

