-- ==== Sys2Proof/Machine/Step.lean ====
section
/-! DEFINITION. One step of the machine, and the word the next step runs. -/

namespace Sys2Proof.Machine

/-- One step: a command executed, or one action of the host (R14, R40, R122). -/
def step (s : State) : Host.Outcome State Fault Refusal := portStep s

/-- The command word `tableWord nbits w` on the port, where `step` takes its next command from. The port is
the only place a command comes from (10_state.md R17), so nothing else changes (log 5). -/
def State.withFetchWord (s : State) (nbits w : Nat) : State := s.placeWord (tableWord nbits w)

end Sys2Proof.Machine
end

