-- ==== Sys2Proof/Machine/Pseudo.lean ====
section
/-! DEFINITION. The pseudo-instructions of 30_encoding.md R59, each the list of commands it stands for. -/

namespace Sys2Proof.Machine

/-- `TBLLOAD s0, ..., s63` (R59): exactly 64 symbols, any other count is refused. -/
def tblLoad (symbols : List Codepoint) : Option (List Instr) :=
  if symbols.length = 64 then
    some (symbols.mapIdx fun i sym => .tblw (BitVec.ofNat 6 i) sym)
  else none

/-- `ENCMSG b0, ..., b(n-1)` (R59). -/
def encMsg (bytes : List Byte) : List Instr := bytes.map .ebyte ++ [.eend]

/-- `DECMSG s0, ..., s(m-1)` (R59). -/
def decMsg (symbols : List Codepoint) : List Instr := symbols.map .dsym ++ [.dend]

/-- `CLRERR` (R59): `CSRW STATUS, 0x0001`. -/
def clrErr : List Instr := [.csrw 1 1]

/-- `SETSTRICT` (R59): `CSRW CTRL, 0x0000`. -/
def setStrict : List Instr := [.csrw 0 0]

/-- `SETLENIENT` (R59): `CSRW CTRL, 0x0001`. -/
def setLenient : List Instr := [.csrw 0 1]

end Sys2Proof.Machine
end

