-- ==== Sys2Proof/Machine/Assembler.lean ====
section
/-! DEFINITION. The assembly syntax of 30_encoding.md R58 and R59: from the characters of a line to the
command words it places on the port. What the syntax leaves open is in log 11. -/

namespace Sys2Proof.Machine

/-! ## Characters -/

/-- A blank between the parts of a line. -/
def isBlank (c : Char) : Bool := c == ' ' || c == '\t'

/-- The characters without the blanks at both ends. -/
def trimBlanks (cs : List Char) : List Char :=
  ((cs.dropWhile isBlank).reverse.dropWhile isBlank).reverse

/-- `;` starts a comment (R58). -/
def stripComment (cs : List Char) : List Char := cs.takeWhile (· != ';')

/-- The parts between commas. -/
def splitCommas : List Char → List (List Char)
  | [] => [[]]
  | c :: cs =>
    match splitCommas cs with
    | [] => [[c]]
    | part :: parts => if c == ',' then [] :: part :: parts else (c :: part) :: parts

/-! ## Numbers (R58: decimal, or hexadecimal with the prefix `0x`) -/

/-- The value of a digit in base 16, either case. -/
def digitValue (c : Char) : Option Nat :=
  let n := c.toNat
  if 48 ≤ n ∧ n ≤ 57 then some (n - 48)
  else if 65 ≤ n ∧ n ≤ 70 then some (n - 55)
  else if 97 ≤ n ∧ n ≤ 102 then some (n - 87)
  else none

/-- Digits read onto the number `acc`, most significant first; none at a character that is no digit. -/
def digitsFrom (base : Nat) : Nat → List Char → Option Nat
  | acc, [] => some acc
  | acc, c :: cs =>
    match digitValue c with
    | some d => if d < base then digitsFrom base (acc * base + d) cs else none
    | none => none

/-- At least one digit. -/
def digits (base : Nat) (cs : List Char) : Option Nat :=
  if cs.isEmpty then none else digitsFrom base 0 cs

/-- A number operand. -/
def number (cs : List Char) : Option Nat :=
  match cs with
  | '0' :: 'x' :: ds => digits 16 ds
  | _ => digits 10 cs

/-- R58: "An assembler refuses an operand out of its range; it never truncates one." -/
def fit (width n : Nat) : Option (BitVec width) :=
  if n < 2 ^ width then some (BitVec.ofNat width n) else none

/-- A number operand in the range of a field of `width` bits. -/
def field (width : Nat) (cs : List Char) : Option (BitVec width) := (number cs).bind (fit width)

/-- The number a symbol operand spells, whatever its size: `U+` and 4 to 6 hexadecimal digits, or a number
(R12, R58). -/
def symbolNumber (cs : List Char) : Option Nat :=
  match cs with
  | 'U' :: '+' :: ds => if 4 ≤ ds.length ∧ ds.length ≤ 6 then digits 16 ds else none
  | _ => number cs

/-- A symbol operand, in its range. -/
def symbolOperand (cs : List Char) : Option Codepoint := (symbolNumber cs).bind (fit 21)

/-- The number a CSR operand spells: that of a name, or a number (R58). -/
def csrNumber (cs : List Char) : Option Nat :=
  if cs = ['C', 'T', 'R', 'L'] then some 0
  else if cs = ['S', 'T', 'A', 'T', 'U', 'S'] then some 1
  else if cs = ['E', 'R', 'R', 'C', 'A', 'U', 'S', 'E'] then some 2
  else if cs = ['E', 'R', 'R', 'V', 'A', 'L'] then some 3
  else number cs

/-- A CSR operand, in the range 0..15. -/
def csrOperand (cs : List Char) : Option CsrNum := (csrNumber cs).bind (fit 4)

/-- All parts read by `f`, or none. -/
def readAll {α : Type} (f : List Char → Option α) : List (List Char) → Option (List α)
  | [] => some []
  | p :: ps =>
    match f p, readAll f ps with
    | some a, some as => some (a :: as)
    | _, _ => none

/-! ## Lines -/

/-- The words of some commands. -/
def wordsOf (is : List Instr) : List Word := is.map encode

/-- The words of one mnemonic with its operands (R58, R59). -/
def assembleCommand (mnemonic : String) (ops : List (List Char)) : Option (List Word) :=
  match mnemonic, ops with
  | "TBLW", [a, b] =>
    match field 6 a, symbolOperand b with
    | some idx, some sym => some (wordsOf [.tblw idx sym])
    | _, _ => none
  | "TBLR", [a] => (field 6 a).map fun idx => wordsOf [.tblr idx]
  | "LOOKUP", [a] => (symbolOperand a).map fun sym => wordsOf [.lookup sym]
  | "STDTBL", [] => some (wordsOf [.stdtbl])
  | "EBYTE", [a] => (field 8 a).map fun b => wordsOf [.ebyte b]
  | "EEND", [] => some (wordsOf [.eend])
  | "DSYM", [a] => (symbolOperand a).map fun sym => wordsOf [.dsym sym]
  | "DEND", [] => some (wordsOf [.dend])
  | "ABORT", [] => some (wordsOf [.abort])
  | "CSRR", [a] => (csrOperand a).map fun csr => wordsOf [.csrr csr]
  | "CSRW", [a, b] =>
    match csrOperand a, field 16 b with
    | some csr, some imm => some (wordsOf [.csrw csr imm])
    | _, _ => none
  | ".word", [a] => (field 32 a).map fun w => [w]
  | "TBLLOAD", parts => ((readAll symbolOperand parts).bind tblLoad).map wordsOf
  | "ENCMSG", parts => (readAll (field 8) parts).map fun bs => wordsOf (encMsg bs)
  | "DECMSG", parts => (readAll symbolOperand parts).map fun ss => wordsOf (decMsg ss)
  | "CLRERR", [] => some (wordsOf clrErr)
  | "SETSTRICT", [] => some (wordsOf setStrict)
  | "SETLENIENT", [] => some (wordsOf setLenient)
  | _, _ => none

/-- One line (R58): a mnemonic, then operands separated by commas, then a comment. A line with nothing but
blanks and a comment places no word. -/
def assembleLine (line : List Char) : Option (List Word) :=
  let body := trimBlanks (stripComment line)
  if body.isEmpty then some []
  else
    let rest := trimBlanks (body.dropWhile fun c => !isBlank c)
    assembleCommand (String.ofList (body.takeWhile fun c => !isBlank c))
      (if rest.isEmpty then [] else (splitCommas rest).map trimBlanks)

/-- A program: the words of its lines, in order; none where a line is refused. -/
def assemble (lines : List (List Char)) : Option (List Word) :=
  (readAll assembleLine lines).map List.flatten

end Sys2Proof.Machine
end

