-- ==== Sys2Proof/Machine/Driver.lean ====
section
/-! DEFINITION. The host software over the block (log 12; text, log 13): 44_host_functions.md R89 to R98, with the run of
70_reset_and_hazards.md R122 it stands on. -/

namespace Sys2Proof.Machine

/-! ## Running commands -/

/-- A program for the block: the host issues the words in order (R122). -/
def State.withProgram (s : State) (ws : List Word) : State := { s with host := ws.map .issue }

/-- The host has popped every queued response (R117). -/
def State.drained (s : State) : State := { s with rspq := [], popped := s.popped ++ s.rspq }

/-- One command of a host function (R89): the queue is read empty, the word is issued and executed, and every
response it emits is read. R89 does not speak of a word still waiting at the port: it is overwritten, and its
command lost (DESIGN CHOICE, log 12). -/
def hostCommand (w : Word) (s : State) : Host.Outcome (State × List Response) Fault Refusal :=
  match step (s.drained.placeWord w) with
  | .next t => .next (t.drained, t.rspq)
  | .fault f => .fault f
  | .refused r => .refused r

/-- A contiguous run of commands (R89), and the responses they emit, in order. -/
def hostRun : List Instr → State → Host.Outcome (State × List Response) Fault Refusal
  | [], s => .next (s, [])
  | i :: is, s =>
    match hostCommand (encode i) s with
    | .next (t, rs) =>
      match hostRun is t with
      | .next (u, qs) => .next (u, rs ++ qs)
      | .fault f => .fault f
      | .refused r => .refused r
    | .fault f => .fault f
    | .refused r => .refused r

/-! ## Text and symbols -/

/-- A continuation byte: `0x80 | v`. -/
def contByte (v : BitVec 6) : Byte := 0x80#8 ||| v.setWidth 8

/-- `utf8(s)` (R90); none where the symbol has no UTF-8 encoding. -/
def utf8 (s : Codepoint) : Option (List Byte) :=
  let n := s.toNat
  if n ≤ 0x7F then some [s.setWidth 8]
  else if n ≤ 0x7FF then
    some [0xC0#8 ||| (s.extractLsb' 6 5).setWidth 8, contByte (s.extractLsb' 0 6)]
  else if 0xD800 ≤ n ∧ n ≤ 0xDFFF then none
  else if n ≤ 0xFFFF then
    some [0xE0#8 ||| (s.extractLsb' 12 4).setWidth 8, contByte (s.extractLsb' 6 6), contByte (s.extractLsb' 0 6)]
  else if n ≤ 0x10FFFF then
    some [0xF0#8 ||| (s.extractLsb' 18 3).setWidth 8, contByte (s.extractLsb' 12 6),
      contByte (s.extractLsb' 6 6), contByte (s.extractLsb' 0 6)]
  else none

/-- The payload of a byte, its low `n` bits, placed `k` bits up in a symbol. -/
def payload (n k : Nat) (b : Byte) : Codepoint := (b.extractLsb' 0 n).setWidth 21 <<< k

/-- The symbol that the payload bits at the front of a text spell, as the first byte says how many bytes
take part, with that count. -/
def runeCandidate : List Byte → Option (Codepoint × Nat)
  | [] => none
  | b0 :: rest =>
    if b0.toNat < 0x80 then some (payload 7 0 b0, 1)
    else if b0.toNat < 0xE0 then
      match rest with
      | b1 :: _ => some (payload 5 6 b0 ||| payload 6 0 b1, 2)
      | _ => none
    else if b0.toNat < 0xF0 then
      match rest with
      | b1 :: b2 :: _ => some (payload 4 12 b0 ||| payload 6 6 b1 ||| payload 6 0 b2, 3)
      | _ => none
    else
      match rest with
      | b1 :: b2 :: b3 :: _ =>
        some (payload 3 18 b0 ||| payload 6 12 b1 ||| payload 6 6 b2 ||| payload 6 0 b3, 4)
      | _ => none

/-- The well-formed sequence at the front of a text: the bytes there are the UTF-8 encoding of a symbol. -/
def decodeRune (t : List Byte) : Option (Codepoint × Nat) :=
  match runeCandidate t with
  | some (s, n) => if utf8 s = some (t.take n) then some (s, n) else none
  | none => none

/-- The symbols of a text of which the first `skip` bytes belong to a sequence already read. -/
def symbolsAfter : Nat → List Byte → List Codepoint
  | _, [] => []
  | skip + 1, _ :: rest => symbolsAfter skip rest
  | 0, b :: rest =>
    match decodeRune (b :: rest) with
    | some (s, n) => s :: symbolsAfter (n - 1) rest
    | none => 0xFFFD#21 :: symbolsAfter 0 rest

/-- `symbols(t)` (R91): ill-formed bytes read as U+FFFD, one byte at a time. -/
def symbols (t : List Byte) : List Codepoint := symbolsAfter 0 t

/-! ## The source's functions -/

/-- What a host function reports in place of a result. -/
inductive HostError where
  /-- `NewEncoding` of other than 64 symbols (R92). -/
  | badAlphabet
  /-- A symbol without UTF-8 encoding (R90). -/
  | unencodable
  /-- `DONE` status 1 (R96). -/
  | invalidSymbol
  /-- `DONE` status 2 (R96). -/
  | truncatedInput
  /-- A response of a kind the host does not expect (R57). -/
  | lostStep
deriving DecidableEq, Repr

/-- A host function ends with the block's state and a result, or stops where the block stops. -/
abbrev HostResult (α : Type) := Host.Outcome (State × Except HostError α) Fault Refusal

/-- A run of commands, and what the host makes of its responses. -/
def hostCall {α : Type} (is : List Instr) (read : List Response → Except HostError α) (s : State) :
    HostResult α :=
  match hostRun is s with
  | .next (t, rs) => .next (t, read rs)
  | .fault f => .fault f
  | .refused r => .refused r

/-- `NewEncoding(alphabet)` (R92): 64 table writes, which emit nothing. -/
def newEncoding (alphabet : List Codepoint) (s : State) : HostResult Unit :=
  match tblLoad alphabet with
  | none => .next (s, .error .badAlphabet)
  | some is => hostCall is (fun rs => if rs.isEmpty then .ok () else .error .lostStep) s

/-- `StdEncoding` (R93) on a block in use: `STDTBL`. -/
def stdEncoding (s : State) : HostResult Unit :=
  hostCall [.stdtbl] (fun rs => if rs.isEmpty then .ok () else .error .lostStep) s

/-- The text of the `SYM` responses (R94). -/
def textOf : List Response → Except HostError (List Byte)
  | [] => .ok []
  | r :: rs =>
    if r.kind = .sym then
      match utf8 (r.data.setWidth 21), textOf rs with
      | some bs, .ok t => .ok (bs ++ t)
      | none, _ => .error .unencodable
      | _, .error e => .error e
    else .error .lostStep

/-- `EncodeToString(src)` (R94). -/
def encodeToString (src : List Byte) (s : State) : HostResult (List Byte) :=
  hostCall (encMsg src) textOf s

/-- R95: the first `min(len(dst), len(t))` bytes of `dst` become those of `t`. -/
def copyInto (dst t : List Byte) : List Byte := t.take dst.length ++ dst.drop t.length

/-- `Encode(dst, src)` (R95): the bytes of `dst` afterwards. -/
def encodeInto (dst src : List Byte) (s : State) : HostResult (List Byte) :=
  hostCall (encMsg src) (fun rs => (textOf rs).map (copyInto dst)) s

/-- The bytes of the `BYTE` responses, in order. -/
def bytesOf (rs : List Response) : List Byte :=
  (rs.filter fun r => r.kind == .byte).map fun r => r.data.setWidth 8

/-- What `DecodeString` makes of a message's responses (R96, R118): nothing of a message is kept unless its
`DONE`, the last response, has status 0. -/
def decodeResult (rs : List Response) : Except HostError (List Byte) :=
  match rs.getLast? with
  | none => .error .lostStep
  | some last =>
    if last.kind = .done ∧ rs.dropLast.all (fun r => r.kind == .byte || r.kind == .err) then
      match last.data.toNat with
      | 0 => .ok (bytesOf rs)
      | 1 => .error .invalidSymbol
      | 2 => .error .truncatedInput
      | _ => .error .lostStep
    else .error .lostStep

/-- `DecodeString(text)` (R96). -/
def decodeString (text : List Byte) (s : State) : HostResult (List Byte) :=
  hostCall (decMsg (symbols text)) decodeResult s

/-- What `Decode(dst, src)` gives (R97): the bytes of `dst` afterwards and the count copied; on an error
`dst` is as it was and the count is 0. -/
def decodeCopy (dst : List Byte) (r : Except HostError (List Byte)) : List Byte × Nat × Option HostError :=
  match r with
  | .ok b => (copyInto dst b, min dst.length b.length, none)
  | .error e => (dst, 0, some e)

/-- `Decode(dst, src)` (R97). -/
def decodeInto (dst src : List Byte) (s : State) : HostResult (List Byte × Nat × Option HostError) :=
  hostCall (decMsg (symbols src)) (fun rs => .ok (decodeCopy dst (decodeResult rs))) s

end Sys2Proof.Machine
end

