-- ==== Sys2Proof/Safety.lean ====
section
/-! DEFINITION. The terms of the claims: the invariants of 10_state.md R28, legal responses (30_encoding.md
R57), and the message functions of 41_encode.md R71, R72 and 42_decode.md R78, R81 as functions on lists. -/

namespace Sys2Proof.Machine

/-- R8: the constraint on `RSPQ_DEPTH`. -/
def ParamsOk (p : Config.Params) : Prop := 4 ≤ p.rspqDepth

/-- R65: the 64 entries are pairwise distinct. -/
def DistinctTable (fwd : Table) : Prop := ∀ u v : Value, tableAt fwd u = tableAt fwd v → u = v

/-- The invariants of R28. `ECNT` never being 3 (R19) is in the type of the field. -/
structure State.Inv (s : State) : Prop where
  /-- `ECNT = 0` implies `G = 0`. -/
  ecnt_zero : s.ecnt = 0 → s.g = 0
  /-- `ECNT = 1` implies `G[15:0] = 0`. -/
  ecnt_one : s.ecnt = 1 → s.g.extractLsb' 0 16 = 0
  /-- `ECNT = 2` implies `G[7:0] = 0`. -/
  ecnt_two : s.ecnt = 2 → s.g.extractLsb' 0 8 = 0
  /-- `ECNT != 0` implies `EOPEN = 1`. -/
  ecnt_open : s.ecnt ≠ 0 → s.eopen = true
  /-- `DCNT = 0` implies `DPREV = 0`. -/
  dcnt_zero : s.dcnt = 0 → s.dprev = 0
  /-- `DCNT != 0` implies `DOPEN = 1`. -/
  dcnt_open : s.dcnt ≠ 0 → s.dopen = true
  /-- `DFAIL = 1` implies `DOPEN = 1`. -/
  dfail_open : s.dfail = true → s.dopen = true
  /-- `DFAIL = 1` implies `CTRL.MODE = 0`. -/
  dfail_strict : s.dfail = true → s.mode = .strict
  /-- `STATUS.ERR = 0` implies `ERRCAUSE = 0` and `ERRVAL = 0`. -/
  err_clear : s.err = false → s.errCause = 0 ∧ s.errVal = 0
  /-- `len(RSPQ) <= RSPQ_DEPTH`. -/
  rspq_fits : s.rspq.length ≤ s.params.rspqDepth

/-- R54, condition by condition: the words that are no command. -/
def IllegalWord (w : Word) : Prop :=
  let op := (w.extractLsb' 28 4).toNat
  (op = 0x0 ∨ 0xC ≤ op)
  ∨ ((op = 0x1 ∨ op = 0x2) ∧ w.extractLsb' 21 1 ≠ 0)
  ∨ ((op = 0x3 ∨ op = 0x7) ∧ w.extractLsb' 21 7 ≠ 0)
  ∨ (op = 0x5 ∧ w.extractLsb' 8 20 ≠ 0)
  ∨ ((op = 0x4 ∨ op = 0x6 ∨ op = 0x8 ∨ op = 0x9) ∧ w.extractLsb' 0 28 ≠ 0)
  ∨ ((op = 0xA ∨ op = 0xB) ∧ w.extractLsb' 16 8 ≠ 0)
  ∨ (op = 0x2 ∧ w.extractLsb' 0 21 ≠ 0)
  ∨ (op = 0xA ∧ (w.extractLsb' 0 16 ≠ 0 ∨ 4 ≤ (w.extractLsb' 24 4).toNat))
  ∨ (op = 0xB ∧ 2 ≤ (w.extractLsb' 24 4).toNat)

/-- The state R100 leaves, written out: the record is that of the first error since a clear, `ERR` is set, one
`ERR` response is at the tail of the queue. -/
def State.withError (s : State) (code : BitVec 4) (info : Word) : State :=
  { s with
    err := true
    errCause := if s.err = true then s.errCause else code
    errVal := if s.err = true then s.errVal else info
    rspq := s.rspq ++ [{ kind := .err, data := code.setWidth 32 }] }

/-- Where a host function starts: no message is open (R89), and no word is at the port, which R89 does not speak of
(the model's choice, log 12). -/
structure State.Idle (s : State) : Prop where
  eopen : s.eopen = false
  dopen : s.dopen = false
  port : s.port = none

/-- The data fields R57 gives each kind, every other bit 0. -/
def Response.Legal (r : Response) : Prop :=
  match r.kind with
  | .sym => r.data.toNat < 2 ^ 21
  | .byte => r.data.toNat < 2 ^ 8
  | .val => (∃ v : Value, r.data = 0x100#32 ||| v.setWidth 32) ∨ r.data = 0
  | .data => True
  | .err => 1 ≤ r.data.toNat ∧ r.data.toNat ≤ 4
  | .done => r.data.toNat ≤ 2

/-! ## Messages as functions on lists -/

/-- `v0` of R71. -/
def value0 (b0 : Byte) : Value := (b0 >>> 2).setWidth 6

/-- `v1` of R71. -/
def value1 (b0 b1 : Byte) : Value := (((b0 &&& 0x03#8) <<< 4) ||| (b1 >>> 4)).setWidth 6

/-- `v2` of R71. -/
def value2 (b1 b2 : Byte) : Value := (((b1 &&& 0x0F#8) <<< 2) ||| (b2 >>> 6)).setWidth 6

/-- `v3` of R71. -/
def value3 (b2 : Byte) : Value := (b2 &&& 0x3F#8).setWidth 6

/-- The values of an encoder message: full groups by R71, the tail by R72. -/
def encodeValues : List Byte → List Value
  | b0 :: b1 :: b2 :: rest => value0 b0 :: value1 b0 b1 :: value2 b1 b2 :: value3 b2 :: encodeValues rest
  | [b0, b1] => [value0 b0, value1 b0 b1, value2 b1 0]
  | [b0] => [value0 b0, value1 b0 0]
  | [] => []

/-- The bytes that the values of a decoder message complete (R78): three to a group, one to a 2-value tail, two to
a 3-value tail. -/
def decodeBytes : List Value → List Byte
  | v1 :: v2 :: v3 :: v4 :: rest => packByte0 v1 v2 :: packByte1 v2 v3 :: packByte2 v3 v4 :: decodeBytes rest
  | [v1, v2, v3] => [packByte0 v1 v2, packByte1 v2 v3]
  | [v1, v2] => [packByte0 v1 v2]
  | [_] => []
  | [] => []

/-- The lone value of a message of `4k + 1` values (R81). -/
def loneTail : List Value → Option Value
  | _ :: _ :: _ :: _ :: rest => loneTail rest
  | [_, _, _] => none
  | [_, _] => none
  | [v] => some v
  | [] => none

/-- Lenient mode adds one byte for a 1-value tail (R81). -/
def decodeBytesLenient (vs : List Value) : List Byte :=
  decodeBytes vs ++ (match loneTail vs with | some v => [(v.setWidth 8 <<< 2 : Byte)] | none => [])

/-- `T` of R73. -/
def tailSymbols (r : Nat) : Nat := if r = 1 then 2 else if r = 2 then 3 else 0

/-- The number of symbols an encoder message of `n` bytes emits (R73). -/
def encodedLength (n : Nat) : Nat := 4 * (n / 3) + tailSymbols (n % 3)

/-- `U'` of R82. -/
def tailBytes (r : Nat) : Nat := if r = 2 then 1 else if r = 3 then 2 else 0

/-- The number of bytes that `m` accepted symbols complete (R82). -/
def decodedLength (m : Nat) : Nat := 3 * (m / 4) + tailBytes (m % 4)

/-- The value a symbol has in a table without duplicates, 0 for a symbol not in it (R63, R84). -/
def valueOrZero (fwd : Table) (sym : Codepoint) : Value := (matching fwd sym).headD 0

/-- The errors among some responses. -/
def errorsIn (rs : List Response) : List Response := rs.filter fun r => r.kind == .err

end Sys2Proof.Machine
end

