-- ==== Sys2Proof/Certificates/Slice0/Obligations.lean ====
section
/-! DEFINITION. The statements for the provers. An equation `exec i s = .next { s with … }` says the result and
the whole frame: every field of the state that is not named keeps its value. -/

open Sys2Proof Sys2Proof.Machine

/-! ## Encoding -/

/-- R60: the sample encodings, in both directions. -/
def Obligations.SampleWordsDecode : Prop :=
  ∀ p ∈ ([(0x1001F600#32, .tblw 0 0x1F600), (0x1FC1F63F#32, .tblw 63 0x1F63F), (0x14000041#32, .tblw 16 0x41),
      (0x24000000#32, .tblr 16), (0x3001F610#32, .lookup 0x1F610), (0x40000000#32, .stdtbl),
      (0x50000041#32, .ebyte 0x41), (0x60000000#32, .eend), (0x7001F610#32, .dsym 0x1F610),
      (0x80000000#32, .dend), (0x90000000#32, .abort), (0xA1000000#32, .csrr 1), (0xB0000001#32, .csrw 0 1),
      (0xB1000001#32, .csrw 1 1)] : List (Word × Instr)),
    encode p.2 = p.1 ∧ decode p.1 = .ok p.2

/-- R48 to R53 with R56: a well-formed command is read back from its word, every operand at every value. -/
def Obligations.DecodeOfEncode : Prop :=
  ∀ i : Instr, i.wellFormed = true → decode (encode i) = .ok i

/-- R54 ("Every 32-bit word is either exactly one legal command or illegal"): the word of a command is the only
word that decodes to it. -/
def Obligations.EncodeOfDecode : Prop :=
  ∀ (w : Word) (i : Instr), decode w = .ok i → i.wellFormed = true ∧ encode i = w

/-- R53, with the opcodes of R47: every operand of a decoded command is a plain field of the word. -/
def Obligations.OperandFields : Prop :=
  ∀ (w : Word) (i : Instr), decode w = .ok i →
    match i with
    | .tblw idx sym => w.extractLsb' 28 4 = 0x1#4 ∧ idx = w.extractLsb' 22 6 ∧ sym = w.extractLsb' 0 21
    | .tblr idx => w.extractLsb' 28 4 = 0x2#4 ∧ idx = w.extractLsb' 22 6
    | .lookup sym => w.extractLsb' 28 4 = 0x3#4 ∧ sym = w.extractLsb' 0 21
    | .stdtbl => w.extractLsb' 28 4 = 0x4#4
    | .ebyte b => w.extractLsb' 28 4 = 0x5#4 ∧ b = w.extractLsb' 0 8
    | .eend => w.extractLsb' 28 4 = 0x6#4
    | .dsym sym => w.extractLsb' 28 4 = 0x7#4 ∧ sym = w.extractLsb' 0 21
    | .dend => w.extractLsb' 28 4 = 0x8#4
    | .abort => w.extractLsb' 28 4 = 0x9#4
    | .csrr csr => w.extractLsb' 28 4 = 0xA#4 ∧ csr = w.extractLsb' 24 4
    | .csrw csr imm => w.extractLsb' 28 4 = 0xB#4 ∧ csr = w.extractLsb' 24 4 ∧ imm = w.extractLsb' 0 16

/-- R54 and R101: a word is refused by the decoder exactly when one of the five conditions holds, and then it runs
the error procedure with cause 3 and itself as the record, and nothing else. -/
def Obligations.IllegalWordsRaise : Prop :=
  (∀ w : Word, (∃ e, decode w = .error e) ↔ IllegalWord w) ∧
  (∀ (w : Word) (s : State), IllegalWord w → runWord w s = .next (s.withError 3 w))

/-! ## Reset -/

/-- R113, for every choice of the parameters of R8; and the default alphabet of R61 in `State.reset`. -/
def Obligations.ResetValues : Prop :=
  (∀ p : Config.Params,
    let s := State.resetWith p
    s.fwd = p.stdAlphabet ∧ s.g = 0 ∧ s.ecnt = 0 ∧ s.eopen = false ∧ s.dprev = 0 ∧ s.dcnt = 0 ∧ s.dopen = false ∧
      s.dfail = false ∧ s.mode = .strict ∧ s.err = false ∧ s.errCause = 0 ∧ s.errVal = 0 ∧ s.rspq = []) ∧
  State.reset = State.resetWith Config.defaultParams ∧
  ∀ v : Value, tableAt State.reset.fwd v = 0x1F600#21 + v.setWidth 21

/-- R112 and R113: reset lands between commands, also while a command is held; the word at the port is
discarded, queued responses are lost. The parameters, the host's later actions and what it has popped are the
model's own (log 1, log 5). -/
def Obligations.HostResetRule : Prop :=
  ∀ (s : State) (rest : List HostAction), s.host = .reset :: rest →
    (s.port = none ∨ s.params.rspqDepth < s.rspq.length + 4) →
    step s = .next { State.resetWith s.params with host := rest, popped := s.popped }

/-! ## The port and the queue -/

/-- R40, R46, R116: a step with a legal word at the port and four free slots is the command's execution, the word
taken off the port. That the command runs before the host's next action, whatever that is, is the model's choice
(log 6): R116 says when it may run, R121 that it eventually does. -/
def Obligations.StepRunsDecoded : Prop :=
  ∀ (s : State) (w : Word) (i : Instr), s.port = some w → s.rspq.length + 4 ≤ s.params.rspqDepth →
    decode w = .ok i → step s = exec i { s with port := none }

/-- R116: with four free slots the word at the port is accepted (that it runs before the host's next action, whatever
that is, is the model's choice, log 6); without them it is held, and a step is a pop or a reset of the host and
leaves everything else, or, when the host does neither next, there is no step (I9; that the model answers this with
a fault is its choice, log 10); no command appends more than four responses, so an accepted command's responses
fit. -/
def Obligations.HoldRule : Prop :=
  (∀ (s : State) (w : Word), s.port = some w → s.rspq.length + 4 ≤ s.params.rspqDepth →
    step s = runWord w { s with port := none }) ∧
  (∀ (s t : State), s.port ≠ none → s.params.rspqDepth < s.rspq.length + 4 → step s = .next t →
    (∃ r q rest, s.host = .pop :: rest ∧ s.rspq = r :: q ∧
      t = { s with rspq := q, popped := s.popped ++ [r], host := rest }) ∨
    (∃ rest, s.host = .reset :: rest ∧
      t = { State.resetWith s.params with host := rest, popped := s.popped })) ∧
  (∀ s : State, s.port ≠ none → s.params.rspqDepth < s.rspq.length + 4 →
    (∀ rest, s.host ≠ .pop :: rest ∧ s.host ≠ .reset :: rest) → step s = .fault .portHung) ∧
  (∀ (w : Word) (s t : State), s.rspq.length + 4 ≤ s.params.rspqDepth → runWord w s = .next t →
    t.rspq.length ≤ t.params.rspqDepth)

/-- R117: the host pops the head of a non-empty queue, between commands or while a command is held, and nothing
else changes; a pop of an empty queue has no step (that the model answers it with a refusal is its choice, log 10). -/
def Obligations.HostPopRule : Prop :=
  (∀ (s : State) (r : Response) (q : List Response) (rest : List HostAction),
    s.host = .pop :: rest → s.rspq = r :: q → (s.port = none ∨ s.params.rspqDepth < s.rspq.length + 4) →
    step s = .next { s with rspq := q, popped := s.popped ++ [r], host := rest }) ∧
  (∀ (s : State) (rest : List HostAction), s.host = .pop :: rest → s.rspq = [] → s.port = none →
    step s = .refused .popEmpty)

/-- R46, R114, R122: the host puts a word on the empty port, and the block waits while there is nothing to do (the
waiting step is the model's choice, log 5). -/
def Obligations.HostIssueRule : Prop :=
  (∀ (s : State) (w : Word) (rest : List HostAction), s.port = none → s.host = .issue w :: rest →
    step s = .next { s with port := some w, host := rest }) ∧
  (∀ s : State, s.port = none → s.host = [] → step s = .next s)

/-- R30, R57, R105, R116: every command, on every state, goes on; it appends at most four responses at the tail of
the queue and each is of a form R57 gives. -/
def Obligations.EveryCommandAnswers : Prop :=
  ∀ (i : Instr) (s : State), ∃ t rs, exec i s = .next t ∧ t.rspq = s.rspq ++ rs ∧ rs.length ≤ 4 ∧
    ∀ r ∈ rs, r.Legal

/-! ## Lookups -/

/-- R63: a miss gives (0, 0), a single match gives its index, several matches give a hit with the draw. The draw is
the free value of log 3: the statement names it and holds whatever it is. -/
def Obligations.ReverseLookup : Prop :=
  ∀ (s : State) (sym : Codepoint),
    ((∀ v, tableAt s.fwd v ≠ sym) → s.lookup sym = (false, 0)) ∧
    (∀ v, tableAt s.fwd v = sym → (∀ u, tableAt s.fwd u = sym → u = v) → s.lookup sym = (true, v)) ∧
    (∀ u v, u ≠ v → tableAt s.fwd u = sym → tableAt s.fwd v = sym →
      s.lookup sym = (true, Config.dupDraw s.fwd s.drawPoint sym))

/-- R65: with pairwise distinct entries the lookups are inverse to each other; reset and `STDTBL` leave such a
table when the standard alphabet is one, and the default alphabet is. -/
def Obligations.LookupInverse : Prop :=
  (∀ (s : State), DistinctTable s.fwd →
    (∀ v, s.lookup (tableAt s.fwd v) = (true, v)) ∧
    (∀ sym v, s.lookup sym = (true, v) → tableAt s.fwd v = sym)) ∧
  DistinctTable Config.defaultParams.stdAlphabet ∧
  (∀ p : Config.Params, DistinctTable p.stdAlphabet → DistinctTable (State.resetWith p).fwd) ∧
  (∀ s t : State, DistinctTable s.params.stdAlphabet → s.eopen = false → s.dopen = false →
    exec .stdtbl s = .next t → DistinctTable t.fwd)

/-- R41, R62, R63: a table write is seen by the next lookup, in both directions, and leaves every other entry. -/
def Obligations.WriteThenLookup : Prop :=
  ∀ (idx : Value) (sym : Codepoint) (s : State), s.eopen = false → s.dopen = false →
    (∀ v, v ≠ idx → tableAt s.fwd v ≠ sym) →
    ∃ t, exec (.tblw idx sym) s = .next t ∧ tableAt t.fwd idx = sym ∧
      (∀ v, v ≠ idx → tableAt t.fwd v = tableAt s.fwd v) ∧ t.lookup sym = (true, idx)

/-! ## The table commands -/

/-- R66: `TBLW`. -/
def Obligations.TblwEffect : Prop :=
  (∀ (idx : Value) (sym : Codepoint) (s : State), s.eopen = false → s.dopen = false →
    exec (.tblw idx sym) s = .next { s with fwd := s.fwd.set idx.toNat sym idx.isLt }) ∧
  (∀ (w : Word) (idx : Value) (sym : Codepoint) (s : State), decode w = .ok (.tblw idx sym) →
    (s.eopen = true ∨ s.dopen = true) → runWord w s = .next (s.withError 4 w)) ∧
  (∀ (w : Word) (s : State), w.extractLsb' 28 4 = 0x1#4 → w.extractLsb' 21 1 ≠ 0#1 →
    runWord w s = .next (s.withError 3 w))

/-- R67: `TBLR`, also while a message is open. -/
def Obligations.TblrEffect : Prop :=
  (∀ (idx : Value) (s : State),
    exec (.tblr idx) s =
      .next { s with rspq := s.rspq ++ [{ kind := .data, data := (s.fwd[idx.toNat]'idx.isLt).setWidth 32 }] }) ∧
  (∀ (w : Word) (s : State), w.extractLsb' 28 4 = 0x2#4 →
    (w.extractLsb' 21 1 ≠ 0#1 ∨ w.extractLsb' 0 21 ≠ 0#21) → runWord w s = .next (s.withError 3 w))

/-- R68: `LOOKUP` answers the lookup's pair in either mode; a miss is `hit` 0 and value 0, and no error. -/
def Obligations.LookupEffect : Prop :=
  (∀ (sym : Codepoint) (s : State),
    exec (.lookup sym) s =
      .next { s with
        rspq := s.rspq ++ [{ kind := .val
                             data := BitVec.ofNat 32 (((s.lookup sym).1.toNat <<< 8) ||| (s.lookup sym).2.toNat) }] }) ∧
  (∀ (sym : Codepoint) (s : State), (∀ v, tableAt s.fwd v ≠ sym) →
    exec (.lookup sym) s = .next { s with rspq := s.rspq ++ [{ kind := .val, data := 0 }] }) ∧
  (∀ (w : Word) (s : State), w.extractLsb' 28 4 = 0x3#4 → w.extractLsb' 21 7 ≠ 0#7 →
    runWord w s = .next (s.withError 3 w))

/-- R69: `STDTBL` loads all 64 entries; on an error none. -/
def Obligations.StdtblEffect : Prop :=
  (∀ s : State, s.eopen = false → s.dopen = false →
    exec .stdtbl s = .next { s with fwd := s.params.stdAlphabet }) ∧
  (∀ (w : Word) (s : State), decode w = .ok .stdtbl → (s.eopen = true ∨ s.dopen = true) →
    runWord w s = .next (s.withError 4 w)) ∧
  (∀ (w : Word) (s : State), w.extractLsb' 28 4 = 0x4#4 → w.extractLsb' 0 28 ≠ 0#28 →
    runWord w s = .next (s.withError 3 w))

/-! ## The encoder -/

/-- R70 and R71: the four values of the group of three bytes, and distinct groups have distinct values. -/
def Obligations.SliceFormulas : Prop :=
  (∀ g : Group, slice g = [g.extractLsb' 18 6, g.extractLsb' 12 6, g.extractLsb' 6 6, g.extractLsb' 0 6]) ∧
  (∀ b0 b1 b2 : Byte,
    slice (b0.setWidth 24 <<< 16 ||| b1.setWidth 24 <<< 8 ||| b2.setWidth 24) =
      [value0 b0, value1 b0 b1, value2 b1 b2, value3 b2]) ∧
  (∀ g h : Group, slice g = slice h → g = h)

/-- R75: `EBYTE`. -/
def Obligations.EbyteEffect : Prop :=
  (∀ (b : Byte) (s : State), s.ecnt = 0 →
    exec (.ebyte b) s = .next { s with eopen := true, g := b.setWidth 24 <<< 16, ecnt := 1 }) ∧
  (∀ (b : Byte) (s : State), s.ecnt = 1 →
    exec (.ebyte b) s = .next { s with eopen := true, g := s.g ||| (b.setWidth 24 <<< 8), ecnt := 2 }) ∧
  (∀ (b : Byte) (s : State), s.ecnt = 2 →
    exec (.ebyte b) s =
      .next { s with
        eopen := true, g := 0, ecnt := 0
        rspq := s.rspq ++ (slice (s.g ||| b.setWidth 24)).map fun v =>
          { kind := .sym, data := (tableAt s.fwd v).setWidth 32 } }) ∧
  (∀ (w : Word) (s : State), w.extractLsb' 28 4 = 0x5#4 → w.extractLsb' 8 20 ≠ 0#20 →
    runWord w s = .next (s.withError 3 w))

/-- R76: `EEND`; with one or two bytes held, the values of the tail are those of R72 (by the invariant R28). -/
def Obligations.EendEffect : Prop :=
  (∀ s : State,
    exec .eend s =
      .next { s with
        eopen := false, g := 0, ecnt := 0
        rspq := s.rspq ++
          ((slice s.g).take (if s.ecnt = 0 then 0 else if s.ecnt = 1 then 2 else 3)).map fun v =>
            { kind := .sym, data := (tableAt s.fwd v).setWidth 32 } }) ∧
  (∀ (b : Byte) (s t : State), s.ecnt = 0 → exec (.ebyte b) s = .next t →
    (slice t.g).take 2 = [value0 b, value1 b 0]) ∧
  (∀ (b : Byte) (s t : State), s.ecnt = 1 → s.Inv → exec (.ebyte b) s = .next t →
    (slice t.g).take 3 = [lane0 s.g, lane1 s.g ||| (b >>> 4).setWidth 6, ((b &&& 0x0F#8) <<< 2).setWidth 6]) ∧
  (∀ (w : Word) (s : State), w.extractLsb' 28 4 = 0x6#4 → w.extractLsb' 0 28 ≠ 0#28 →
    runWord w s = .next (s.withError 3 w))

/-- R72, R73, R74, from a state with no message open: the symbols of a message are the table's at the message's
values, as many as the length law says, with no error; of the state only the queue and the host's record differ.
The record `popped`, and that the responses found queued at the start go into it first, are the model's choices
(logs 5 and 12). -/
def Obligations.EncodeMessage : Prop :=
  ∀ (bs : List Byte) (s : State), s.Inv → s.Idle → ParamsOk s.params →
    (encodeValues bs).length = encodedLength bs.length ∧
    let rs : List Response := (encodeValues bs).map fun v => { kind := .sym, data := (tableAt s.fwd v).setWidth 32 }
    hostRun (encMsg bs) s = .next ({ s with rspq := [], popped := s.popped ++ s.rspq ++ rs }, rs)

/-! ## The decoder -/

/-- R78, with shifts of unbounded numbers and `trunc_8` as the low 8 bits (R11). -/
def Obligations.PackBytes : Prop :=
  ∀ v1 v2 v3 v4 : Value,
    (packByte0 v1 v2).toNat = ((v1.toNat <<< 2) ||| (v2.toNat >>> 4)) % 256 ∧
    (packByte1 v2 v3).toNat = ((v2.toNat <<< 4) ||| (v3.toNat >>> 2)) % 256 ∧
    (packByte2 v3 v4).toNat = ((v3.toNat <<< 6) ||| v4.toNat) % 256 ∧
    (v1.toNat <<< 2) ||| (v2.toNat >>> 4) < 256

/-- R79: packing inverts slicing, for a full group and for tails of one and two bytes. -/
def Obligations.PackInvertsSlice : Prop :=
  ∀ b0 b1 b2 : Byte,
    (packByte0 (value0 b0) (value1 b0 b1) = b0 ∧ packByte1 (value1 b0 b1) (value2 b1 b2) = b1 ∧
      packByte2 (value2 b1 b2) (value3 b2) = b2) ∧
    packByte0 (value0 b0) (value1 b0 0) = b0 ∧
    (packByte0 (value0 b0) (value1 b0 b1) = b0 ∧ packByte1 (value1 b0 b1) (value2 b1 0) = b1)

/-- R77 and R80: `DSYM`. `v` is the symbol's value: the lookup's on a hit, 0 for a lenient miss. -/
def Obligations.DsymEffect : Prop :=
  (∀ (sym : Codepoint) (s : State), s.dfail = true → exec (.dsym sym) s = .next { s with dopen := true }) ∧
  (∀ (sym : Codepoint) (s : State), s.dfail = false → (s.lookup sym).1 = false → s.mode = .strict →
    exec (.dsym sym) s =
      .next (({ s with dopen := true, dfail := true } : State).withError 1 (sym.setWidth 32))) ∧
  (∀ (sym : Codepoint) (v : Value) (s : State), s.dfail = false →
    (s.lookup sym = (true, v) ∨ ((s.lookup sym).1 = false ∧ s.mode = .lenient ∧ v = 0)) →
    (s.dcnt = 0 → exec (.dsym sym) s = .next { s with dopen := true, dprev := v, dcnt := 1 }) ∧
    (s.dcnt = 1 → exec (.dsym sym) s =
      .next { s with
        dopen := true, dprev := v, dcnt := 2
        rspq := s.rspq ++ [{ kind := .byte
                             data := BitVec.ofNat 32 (((s.dprev.toNat <<< 2) ||| (v.toNat >>> 4)) % 256) }] }) ∧
    (s.dcnt = 2 → exec (.dsym sym) s =
      .next { s with
        dopen := true, dprev := v, dcnt := 3
        rspq := s.rspq ++ [{ kind := .byte
                             data := BitVec.ofNat 32 (((s.dprev.toNat <<< 4) ||| (v.toNat >>> 2)) % 256) }] }) ∧
    (s.dcnt = 3 → exec (.dsym sym) s =
      .next { s with
        dopen := true, dprev := 0, dcnt := 0
        rspq := s.rspq ++ [{ kind := .byte
                             data := BitVec.ofNat 32 (((s.dprev.toNat <<< 6) ||| v.toNat) % 256) }] })) ∧
  (∀ (w : Word) (s : State), w.extractLsb' 28 4 = 0x7#4 → w.extractLsb' 21 7 ≠ 0#7 →
    runWord w s = .next (s.withError 3 w))

/-- R81: `DEND`. -/
def Obligations.DendEffect : Prop :=
  (∀ s : State, s.dfail = true →
    exec .dend s = .next { s with
      dprev := 0, dcnt := 0, dopen := false, dfail := false
      rspq := s.rspq ++ [{ kind := .done, data := 1 }] }) ∧
  (∀ s : State, s.dfail = false → s.dcnt = 1 → s.mode = .strict →
    exec .dend s = .next { s.withError 2 (s.dprev.setWidth 32) with
      dprev := 0, dcnt := 0, dopen := false, dfail := false
      rspq := s.rspq ++ [{ kind := .err, data := 2 }, { kind := .done, data := 2 }] }) ∧
  (∀ s : State, s.dfail = false → s.dcnt = 1 → s.mode = .lenient →
    exec .dend s = .next { s with
      dprev := 0, dcnt := 0, dopen := false, dfail := false
      rspq := s.rspq ++ [{ kind := .byte, data := BitVec.ofNat 32 ((s.dprev.toNat <<< 2) % 256) },
        { kind := .done, data := 0 }] }) ∧
  (∀ s : State, s.dfail = false → s.dcnt ≠ 1 →
    exec .dend s = .next { s with
      dprev := 0, dcnt := 0, dopen := false, dfail := false
      rspq := s.rspq ++ [{ kind := .done, data := 0 }] }) ∧
  (∀ (w : Word) (s : State), w.extractLsb' 28 4 = 0x8#4 → w.extractLsb' 0 28 ≠ 0#28 →
    runWord w s = .next (s.withError 3 w))

/-- R82 for a strict message of symbols that are all in the table: the bytes the values complete, by count and
content, then `TruncatedInput` and status 2 after `4k + 1` symbols, else status 0. For tables without duplicates;
the run of a message is log 12's. -/
def Obligations.StrictMessage : Prop :=
  ∀ (syms : List Codepoint) (s : State), s.Inv → s.Idle → ParamsOk s.params → DistinctTable s.fwd →
    s.mode = .strict → (∀ sym ∈ syms, ∃ v, tableAt s.fwd v = sym) →
    (decodeBytes (syms.map (valueOrZero s.fwd))).length = decodedLength syms.length ∧
    ∃ t, hostRun (decMsg syms) s =
        .next (t, ((decodeBytes (syms.map (valueOrZero s.fwd))).map fun b => { kind := .byte, data := b.setWidth 32 }) ++
          if syms.length % 4 = 1 then [{ kind := .err, data := 2 }, { kind := .done, data := 2 }]
          else [{ kind := .done, data := 0 }]) ∧
      t.Idle ∧ t.fwd = s.fwd ∧ t.mode = .strict

/-- R82, R118 for a strict message with an unknown symbol: the bytes of the symbols before the first unknown one,
then `InvalidSymbol`, and status 1 at the end; the symbols after it are ignored, and `STATUS.ERR` is 1 (of
`ERRCAUSE` and `ERRVAL` nothing is said here). For tables without duplicates; the run of a message is log 12's. -/
def Obligations.StrictInvalidMessage : Prop :=
  ∀ (good rest : List Codepoint) (bad : Codepoint) (s : State), s.Inv → s.Idle → ParamsOk s.params →
    DistinctTable s.fwd → s.mode = .strict → (∀ sym ∈ good, ∃ v, tableAt s.fwd v = sym) →
    (∀ v, tableAt s.fwd v ≠ bad) →
    (decodeBytes (good.map (valueOrZero s.fwd))).length = decodedLength good.length ∧
    ∃ t, hostRun (decMsg (good ++ bad :: rest)) s =
        .next (t, ((decodeBytes (good.map (valueOrZero s.fwd))).map fun b => { kind := .byte, data := b.setWidth 32 }) ++
          [{ kind := .err, data := 1 }, { kind := .done, data := 1 }]) ∧
      t.Idle ∧ t.fwd = s.fwd ∧ t.mode = .strict ∧ t.err = true

/-- R82 and R84, lenient mode: an unknown symbol decodes as value 0, a message of `4k + 1` symbols ends in one byte
more, the status is 0 and `STATUS.ERR` is as it was. For tables without duplicates; the run of a message is log 12's. -/
def Obligations.LenientMessage : Prop :=
  ∀ (syms : List Codepoint) (s : State), s.Inv → s.Idle → ParamsOk s.params → DistinctTable s.fwd →
    s.mode = .lenient →
    (decodeBytesLenient (syms.map (valueOrZero s.fwd))).length =
      decodedLength syms.length + (if syms.length % 4 = 1 then 1 else 0) ∧
    ∃ t, hostRun (decMsg syms) s =
        .next (t, ((decodeBytesLenient (syms.map (valueOrZero s.fwd))).map fun b =>
            { kind := .byte, data := b.setWidth 32 }) ++ [{ kind := .done, data := 0 }]) ∧
      t.Idle ∧ t.fwd = s.fwd ∧ t.mode = .lenient ∧ t.err = s.err

/-- R83: what the encoder emits at `s`, the decoder turns back at `d`, under the same table, in either mode
(the run of a message is log 12's). -/
def Obligations.RoundTrip : Prop :=
  ∀ (bs : List Byte) (s d : State), s.Inv → s.Idle → ParamsOk s.params → d.Inv → d.Idle → ParamsOk d.params →
    DistinctTable s.fwd → d.fwd = s.fwd →
    ∃ t u syms, hostRun (encMsg bs) s = .next (t, syms.map fun c => { kind := .sym, data := c.setWidth 32 }) ∧
      hostRun (decMsg syms) d =
        .next (u, (bs.map fun b => { kind := .byte, data := b.setWidth 32 }) ++ [{ kind := .done, data := 0 }])

/-- R45: the responses of a message depend on its items, the table and (for the decoder) the mode alone, whatever
else the two states hold; for a table without duplicates. -/
def Obligations.MessagesArePure : Prop :=
  (∀ (bs : List Byte) (s d : State), s.Inv → s.Idle → ParamsOk s.params → d.Inv → d.Idle → ParamsOk d.params →
    d.fwd = s.fwd →
    ∃ t u rs, hostRun (encMsg bs) s = .next (t, rs) ∧ hostRun (encMsg bs) d = .next (u, rs)) ∧
  (∀ (syms : List Codepoint) (s d : State), s.Inv → s.Idle → ParamsOk s.params → d.Inv → d.Idle → ParamsOk d.params →
    d.fwd = s.fwd → DistinctTable s.fwd → d.mode = s.mode →
    ∃ t u rs, hostRun (decMsg syms) s = .next (t, rs) ∧ hostRun (decMsg syms) d = .next (u, rs))

/-! ## The control commands -/

/-- R85: `ABORT`. -/
def Obligations.AbortEffect : Prop :=
  (∀ s : State,
    exec .abort s = .next { s with
      g := 0, ecnt := 0, eopen := false, dprev := 0, dcnt := 0, dopen := false, dfail := false }) ∧
  (∀ (w : Word) (s : State), w.extractLsb' 28 4 = 0x9#4 → w.extractLsb' 0 28 ≠ 0#28 →
    runWord w s = .next (s.withError 3 w))

/-- R86 and R87: `CSRR` of each assigned number, and the numbers and fields that are illegal. -/
def Obligations.CsrrEffect : Prop :=
  (∀ s : State,
    exec (.csrr 0) s =
      .next { s with rspq := s.rspq ++ [{ kind := .data, data := if s.mode = .lenient then 1 else 0 }] }) ∧
  (∀ s : State,
    exec (.csrr 1) s =
      .next { s with
        rspq := s.rspq ++ [{ kind := .data
                             data := BitVec.ofNat 32 (s.dcnt.val * 64 + s.ecnt.val * 16 + s.dfail.toNat * 8
                               + s.dopen.toNat * 4 + s.eopen.toNat * 2 + s.err.toNat) }] }) ∧
  (∀ s : State,
    exec (.csrr 2) s =
      .next { s with rspq := s.rspq ++ [{ kind := .data, data := s.errCause.setWidth 32 }] }) ∧
  (∀ s : State,
    exec (.csrr 3) s = .next { s with rspq := s.rspq ++ [{ kind := .data, data := s.errVal }] }) ∧
  (∀ (w : Word) (s : State), w.extractLsb' 28 4 = 0xA#4 →
    (w.extractLsb' 16 8 ≠ 0#8 ∨ w.extractLsb' 0 16 ≠ 0#16 ∨ 4 ≤ (w.extractLsb' 24 4).toNat) →
    runWord w s = .next (s.withError 3 w))

/-- R88: `CSRW` of `CTRL` and of `STATUS`, and the numbers and fields that are illegal. -/
def Obligations.CsrwEffect : Prop :=
  (∀ (imm : Imm) (s : State), s.eopen = false → s.dopen = false →
    exec (.csrw 0 imm) s = .next { s with mode := if imm.toNat % 2 = 1 then .lenient else .strict }) ∧
  (∀ (w : Word) (imm : Imm) (s : State), decode w = .ok (.csrw 0 imm) → (s.eopen = true ∨ s.dopen = true) →
    runWord w s = .next (s.withError 4 w)) ∧
  (∀ (imm : Imm) (s : State), imm.toNat % 2 = 1 →
    exec (.csrw 1 imm) s = .next { s with err := false, errCause := 0, errVal := 0 }) ∧
  (∀ (imm : Imm) (s : State), imm.toNat % 2 = 0 → exec (.csrw 1 imm) s = .next s) ∧
  (∀ (w : Word) (s : State), w.extractLsb' 28 4 = 0xB#4 →
    (w.extractLsb' 16 8 ≠ 0#8 ∨ 2 ≤ (w.extractLsb' 24 4).toNat) → runWord w s = .next (s.withError 3 w))

/-! ## Errors -/

/-- R99 and R100: the codes; the first error is recorded, later ones are not, each emits its `ERR`; and after any
error every command goes on. -/
def Obligations.ErrorProcedure : Prop :=
  ((Cause.code .invalidSymbol, Cause.code .truncatedInput, Cause.code .illegalCommand, Cause.code .busy)
    = (1#4, 2#4, 3#4, 4#4)) ∧
  (∀ (c : Cause) (info : Word) (s : State), s.err = false →
    s.report c info = { s with
      err := true, errCause := c.code, errVal := info
      rspq := s.rspq ++ [{ kind := .err, data := c.code.setWidth 32 }] }) ∧
  (∀ (c : Cause) (info : Word) (s : State), s.err = true →
    s.report c info = { s with rspq := s.rspq ++ [{ kind := .err, data := c.code.setWidth 32 }] }) ∧
  (∀ (c : Cause) (info : Word) (s : State) (i : Instr), ∃ t, exec i (s.report c info) = .next t)

/-- R102: the three busy commands, and that no other answers `Busy`; `EEND`, `DEND` and `ABORT` lift it. -/
def Obligations.BusyRule : Prop :=
  (∀ (w : Word) (i : Instr) (s : State), decode w = .ok i →
    ((∃ idx sym, i = .tblw idx sym) ∨ i = .stdtbl ∨ (∃ imm, i = .csrw 0 imm)) →
    (s.eopen = true ∨ s.dopen = true) → runWord w s = .next (s.withError 4 w)) ∧
  (∀ (i : Instr) (s t : State) (rs : List Response), exec i s = .next t → t.rspq = s.rspq ++ rs →
    { kind := .err, data := 4 } ∈ rs →
    (s.eopen = true ∨ s.dopen = true) ∧
      ((∃ idx sym, i = .tblw idx sym) ∨ i = .stdtbl ∨ (∃ imm, i = .csrw 0 imm))) ∧
  (∀ s : State, ∃ t, exec .eend s = .next t ∧ t.eopen = false ∧ t.dopen = s.dopen) ∧
  (∀ s : State, ∃ t, exec .dend s = .next t ∧ t.dopen = false ∧ t.eopen = s.eopen) ∧
  (∀ s : State, ∃ t, exec .abort s = .next t ∧ t.eopen = false ∧ t.dopen = false)

/-- R103: no decode error in lenient mode, none from encoding in either mode; `IllegalCommand` and `Busy` in both
modes. -/
def Obligations.ErrorsByMode : Prop :=
  (∀ (i : Instr) (s t : State) (rs : List Response), s.mode = .lenient → exec i s = .next t →
    t.rspq = s.rspq ++ rs → { kind := .err, data := 1 } ∉ rs ∧ { kind := .err, data := 2 } ∉ rs) ∧
  (∀ (i : Instr) (s t : State) (rs : List Response), ((∃ b, i = .ebyte b) ∨ i = .eend) → exec i s = .next t →
    t.rspq = s.rspq ++ rs → errorsIn rs = []) ∧
  (∀ (m : Mode) (w : Word) (s : State), s.mode = m → IllegalWord w → runWord w s = .next (s.withError 3 w)) ∧
  (∀ (m : Mode) (w : Word) (i : Instr) (s : State), s.mode = m → decode w = .ok i →
    ((∃ idx sym, i = .tblw idx sym) ∨ i = .stdtbl ∨ (∃ imm, i = .csrw 0 imm)) →
    (s.eopen = true ∨ s.dopen = true) → runWord w s = .next (s.withError 4 w))

/-- R104: at most one error a word; `IllegalCommand` before anything runs; `InvalidSymbol` only from `DSYM`,
`TruncatedInput` only from `DEND` of a message that has not failed; `DEND` always ends with `DONE`. -/
def Obligations.AtMostOneError : Prop :=
  (∀ (w : Word) (s t : State) (rs : List Response), runWord w s = .next t → t.rspq = s.rspq ++ rs →
    (errorsIn rs).length ≤ 1) ∧
  (∀ (w : Word) (s : State), IllegalWord w → runWord w s = .next (s.withError 3 w)) ∧
  (∀ (i : Instr) (s t : State) (rs : List Response), exec i s = .next t → t.rspq = s.rspq ++ rs →
    ({ kind := .err, data := 1 } ∈ rs → ∃ sym, i = .dsym sym) ∧
    ({ kind := .err, data := 2 } ∈ rs → i = .dend ∧ s.dfail = false)) ∧
  (∀ s : State, ∃ t rs d, exec .dend s = .next t ∧ t.rspq = s.rspq ++ rs ++ [{ kind := .done, data := d }])

/-- R27, R100, R106: once an error is recorded, every step keeps the record, but for `CSRW STATUS` with bit 0 set
and reset. -/
def Obligations.FirstErrorKept : Prop :=
  ∀ s t : State, step s = .next t → s.err = true →
    (t.err = true ∧ t.errCause = s.errCause ∧ t.errVal = s.errVal) ∨
    (∃ w imm, s.port = some w ∧ decode w = .ok (.csrw 1 imm) ∧ imm.toNat % 2 = 1 ∧
      t = { s with port := none, err := false, errCause := 0, errVal := 0 }) ∨
    (∃ rest, s.host = .reset :: rest ∧ t = { State.resetWith s.params with host := rest, popped := s.popped })

/-! ## The whole machine -/

/-- R28 at reset, for every admitted queue depth and alphabet. -/
def Obligations.ResetMeetsInv : Prop :=
  State.reset.Inv ∧ ∀ p : Config.Params, ParamsOk p → (State.resetWith p).Inv

/-- R28: every step, of the block or the host, keeps the invariants. -/
def Obligations.StepKeepsInv : Prop :=
  ∀ s t : State, s.Inv → step s = .next t → t.Inv

/-- R57: every response queued or popped is of a form the rule gives, at reset and after every step. -/
def Obligations.ResponsesStayLegal : Prop :=
  (∀ r ∈ State.reset.rspq ++ State.reset.popped, r.Legal) ∧
  (∀ s t : State, (∀ r ∈ s.rspq ++ s.popped, r.Legal) → step s = .next t → ∀ r ∈ t.rspq ++ t.popped, r.Legal)

/-- R15: no step changes the parameters (that State holds them is the model's choice, log 1). -/
def Obligations.ParamsNeverChange : Prop :=
  ∀ s t : State, step s = .next t → t.params = s.params

/-- R39: while a message is open, no step but reset changes the table or the mode. -/
def Obligations.MessageSeesOneTableAndMode : Prop :=
  ∀ s t : State, step s = .next t → (s.eopen = true ∨ s.dopen = true) →
    (t.fwd = s.fwd ∧ t.mode = s.mode) ∨
    (∃ rest, s.host = .reset :: rest ∧ t = { State.resetWith s.params with host := rest, popped := s.popped })

/-- R18: the table is written by `TBLW` (one entry), `STDTBL` (all entries) and reset only. -/
def Obligations.TableWriters : Prop :=
  ∀ s t : State, step s = .next t → t.fwd ≠ s.fwd →
    (∃ w idx sym, s.port = some w ∧ decode w = .ok (.tblw idx sym) ∧ s.eopen = false ∧ s.dopen = false ∧
      t.fwd = s.fwd.set idx.toNat sym idx.isLt) ∨
    (∃ w, s.port = some w ∧ decode w = .ok .stdtbl ∧ s.eopen = false ∧ s.dopen = false ∧
      t.fwd = s.params.stdAlphabet) ∨
    (∃ rest, s.host = .reset :: rest ∧ t = { State.resetWith s.params with host := rest, popped := s.popped })

/-- R39: the encoder's commands leave the decoder's registers, the decoder's the encoder's; the reads and
`CSRW STATUS` leave both, message open or not. -/
def Obligations.EncoderAndDecoderIndependent : Prop :=
  (∀ (i : Instr) (s t : State), ((∃ b, i = .ebyte b) ∨ i = .eend) → exec i s = .next t →
    t.dprev = s.dprev ∧ t.dcnt = s.dcnt ∧ t.dopen = s.dopen ∧ t.dfail = s.dfail) ∧
  (∀ (i : Instr) (s t : State), ((∃ sym, i = .dsym sym) ∨ i = .dend) → exec i s = .next t →
    t.g = s.g ∧ t.ecnt = s.ecnt ∧ t.eopen = s.eopen) ∧
  (∀ (i : Instr) (s t : State),
    ((∃ idx, i = .tblr idx) ∨ (∃ sym, i = .lookup sym) ∨ (∃ csr, i = .csrr csr) ∨ (∃ imm, i = .csrw 1 imm)) →
    exec i s = .next t →
    t.g = s.g ∧ t.ecnt = s.ecnt ∧ t.eopen = s.eopen ∧
      t.dprev = s.dprev ∧ t.dcnt = s.dcnt ∧ t.dopen = s.dopen ∧ t.dfail = s.dfail)

/-- R37: `TBLR`, `LOOKUP` and a legal `CSRR` change nothing but the queue, raise nothing, and answer the same when
repeated (a drawn value too: log 3). -/
def Obligations.ReadsHaveNoSideEffect : Prop :=
  ∀ (i : Instr) (s : State),
    ((∃ idx, i = .tblr idx) ∨ (∃ sym, i = .lookup sym) ∨ (∃ csr : CsrNum, csr.toNat < 4 ∧ i = .csrr csr)) →
    ∃ r : Response, r.kind ≠ .err ∧ exec i s = .next { s with rspq := s.rspq ++ [r] } ∧
      exec i { s with rspq := s.rspq ++ [r] } = .next { s with rspq := s.rspq ++ [r, r] }

/-- R30: what the host has popped, followed by the queue, only grows at its end: nothing is lost, repeated or
reordered; only reset drops what is queued. -/
def Obligations.ResponsesInOrder : Prop :=
  ∀ s t : State, step s = .next t →
    (∃ rs, rs.length ≤ 4 ∧ t.popped ++ t.rspq = s.popped ++ s.rspq ++ rs) ∨
    (∃ rest, s.host = .reset :: rest ∧ t.popped = s.popped ∧ t.rspq = [])

/-- R30, R117: no command reads the queue, so a pop before a command and a pop after it leave the same state (what
the model's choice to let the block move first rests on, log 6). For a symbol held by several entries, `LOOKUP` and
`DSYM` draw the same value at the two queues because the draw does not read the queue, which is log 3's (DEDUCED). -/
def Obligations.PopsCommute : Prop :=
  ∀ (i : Instr) (s t : State) (r : Response) (q : List Response), s.rspq = r :: q → exec i s = .next t →
    exec i { s with rspq := q, popped := s.popped ++ [r] } =
      .next { t with rspq := t.rspq.tail, popped := t.popped ++ [r] }

/-! ## The host functions, the assembler -/

/-- R59: the expansions. -/
def Obligations.PseudoExpansions : Prop :=
  (∀ ss : List Codepoint, ss.length ≠ 64 → tblLoad ss = none) ∧
  (∀ ss : List Codepoint, ss.length = 64 → ∃ is, tblLoad ss = some is ∧ is.length = 64 ∧
    ∀ (k : Nat) (h : k < ss.length), is[k]? = some (.tblw (BitVec.ofNat 6 k) ss[k])) ∧
  (∀ bs : List Byte, encMsg bs = bs.map .ebyte ++ [.eend]) ∧
  (∀ ss : List Codepoint, decMsg ss = ss.map .dsym ++ [.dend]) ∧
  clrErr = [.csrw 1 0x0001] ∧ setStrict = [.csrw 0 0x0000] ∧ setLenient = [.csrw 0 0x0001]

/-- R58: an operand in its range is taken as it is, one out of its range is refused, never truncated. First what
the operands spell, decimal and hexadecimal, `U+` with 4 to 6 digits, the CSR names (which further texts are numbers
is the model's choice, log 11); then the operand readers; then the word of each form, or none where an operand of
it does not fit, the pseudo-instructions of R59 included. The words are those of R48 to R52. -/
def Obligations.AssemblerNeverTruncates : Prop :=
  (∀ n : Nat, number (Nat.toDigits 10 n) = some n ∧ number ('0' :: 'x' :: Nat.toDigits 16 n) = some n ∧
    symbolNumber (Nat.toDigits 10 n) = some n ∧ csrNumber (Nat.toDigits 10 n) = some n) ∧
  (∀ k n : Nat, symbolNumber ('U' :: '+' :: (List.replicate k '0' ++ Nat.toDigits 16 n)) =
    if 4 ≤ k + (Nat.toDigits 16 n).length ∧ k + (Nat.toDigits 16 n).length ≤ 6 then some n else none) ∧
  (csrNumber "CTRL".toList = some 0 ∧ csrNumber "STATUS".toList = some 1 ∧
    csrNumber "ERRCAUSE".toList = some 2 ∧ csrNumber "ERRVAL".toList = some 3) ∧
  (∀ (width n : Nat) (b : BitVec width), fit width n = some b ↔ b.toNat = n) ∧
  (∀ (width n : Nat), fit width n = none ↔ 2 ^ width ≤ n) ∧
  (∀ (width : Nat) (cs : List Char) (b : BitVec width), field width cs = some b ↔ number cs = some b.toNat) ∧
  (∀ (cs : List Char) (sym : Codepoint), symbolOperand cs = some sym ↔ symbolNumber cs = some sym.toNat) ∧
  (∀ (cs : List Char) (csr : CsrNum), csrOperand cs = some csr ↔ csrNumber cs = some csr.toNat) ∧
  (∀ (a b : List Char) (n m : Nat), number a = some n → symbolNumber b = some m →
    assembleCommand "TBLW" [a, b] =
      if n < 64 ∧ m < 2 ^ 21 then some [BitVec.ofNat 32 (0x1 * 2 ^ 28 + n * 2 ^ 22 + m)] else none) ∧
  (∀ (a : List Char) (n : Nat), number a = some n →
    assembleCommand "TBLR" [a] = (if n < 64 then some [BitVec.ofNat 32 (0x2 * 2 ^ 28 + n * 2 ^ 22)] else none) ∧
    assembleCommand "EBYTE" [a] = (if n < 256 then some [BitVec.ofNat 32 (0x5 * 2 ^ 28 + n)] else none) ∧
    assembleCommand ".word" [a] = (if n < 2 ^ 32 then some [BitVec.ofNat 32 n] else none)) ∧
  (∀ (a : List Char) (m : Nat), symbolNumber a = some m →
    assembleCommand "LOOKUP" [a] = (if m < 2 ^ 21 then some [BitVec.ofNat 32 (0x3 * 2 ^ 28 + m)] else none) ∧
    assembleCommand "DSYM" [a] = (if m < 2 ^ 21 then some [BitVec.ofNat 32 (0x7 * 2 ^ 28 + m)] else none)) ∧
  (∀ (a : List Char) (c : Nat), csrNumber a = some c →
    assembleCommand "CSRR" [a] = if c < 16 then some [BitVec.ofNat 32 (0xA * 2 ^ 28 + c * 2 ^ 24)] else none) ∧
  (∀ (a b : List Char) (c n : Nat), csrNumber a = some c → number b = some n →
    assembleCommand "CSRW" [a, b] =
      if c < 16 ∧ n < 2 ^ 16 then some [BitVec.ofNat 32 (0xB * 2 ^ 28 + c * 2 ^ 24 + n)] else none) ∧
  (∀ (parts : List (List Char)) (ns : List Nat), parts.map number = ns.map some →
    assembleCommand "ENCMSG" parts =
      if ∀ n ∈ ns, n < 256 then some (ns.map (fun n => BitVec.ofNat 32 (0x5 * 2 ^ 28 + n)) ++ [0x60000000#32])
      else none) ∧
  (∀ (parts : List (List Char)) (ms : List Nat), parts.map symbolNumber = ms.map some →
    assembleCommand "DECMSG" parts =
      (if ∀ m ∈ ms, m < 2 ^ 21 then some (ms.map (fun m => BitVec.ofNat 32 (0x7 * 2 ^ 28 + m)) ++ [0x80000000#32])
      else none) ∧
    assembleCommand "TBLLOAD" parts =
      if ms.length = 64 ∧ ∀ m ∈ ms, m < 2 ^ 21 then
        some (ms.mapIdx fun k m => BitVec.ofNat 32 (0x1 * 2 ^ 28 + k * 2 ^ 22 + m))
      else none)

/-- R90: which symbols have no text, and the text of the standard alphabet. UTF-8 is general knowledge, which the
spec marks as such (log 13, PRESUMED). -/
def Obligations.Utf8OfSymbols : Prop :=
  (∀ s : Codepoint, utf8 s = none ↔ (0xD800 ≤ s.toNat ∧ s.toNat ≤ 0xDFFF) ∨ 0x10FFFF < s.toNat) ∧
  (∀ i : Value, utf8 (0x1F600#21 + i.setWidth 21) = some [0xF0#8, 0x9F#8, 0x98#8, 0x80#8 + i.setWidth 8])

/-- R90, R91: the symbols of a text made of symbols are those symbols; where no well-formed sequence begins, U+FFFD
is taken for one byte. Both are general knowledge, which the spec marks as such (log 13, PRESUMED). -/
def Obligations.SymbolsOfText : Prop :=
  (∀ ps : List (Codepoint × List Byte), (∀ p ∈ ps, utf8 p.1 = some p.2) →
    symbols (ps.map Prod.snd).flatten = ps.map Prod.fst) ∧
  (∀ (b : Byte) (t : List Byte), (∀ (s : Codepoint) (n : Nat), utf8 s ≠ some ((b :: t).take n)) →
    symbols (b :: t) = 0xFFFD#21 :: symbols t)

/-- R83, R94, R96: `DecodeString` gives back what `EncodeToString` was given, for any table of distinct symbols that
have a text, in either mode. Texts are UTF-8 (log 13, PRESUMED); the runs are log 12's. -/
def Obligations.TextRoundTrip : Prop :=
  ∀ (bs : List Byte) (s : State), s.Inv → s.Idle → ParamsOk s.params → DistinctTable s.fwd →
    (∀ v, utf8 (tableAt s.fwd v) ≠ none) →
    ∃ t text u, encodeToString bs s = .next (t, .ok text) ∧ decodeString text t = .next (u, .ok bs)

/-- R98, R94: the length of the text under the standard alphabet (the default one, log 2); that a symbol of it is four
bytes of text is UTF-8 (log 13, PRESUMED). -/
def Obligations.StandardTextLength : Prop :=
  ∀ (bs : List Byte) (s : State), s.Inv → s.Idle → ParamsOk s.params → s.fwd = Config.defaultAlphabet →
    ∃ t text, encodeToString bs s = .next (t, .ok text) ∧ text.length = 4 * encodedLength bs.length

/-- R95: `Encode` writes as many bytes as fit, the text's first ones, and leaves the rest of `dst`. -/
def Obligations.EncodeTruncates : Prop :=
  ∀ (dst src text : List Byte) (s t : State), encodeToString src s = .next (t, .ok text) →
    ∃ out, encodeInto dst src s = .next (t, .ok out) ∧ out.length = dst.length ∧
      out.take (min dst.length text.length) = text.take (min dst.length text.length) ∧
      out.drop (min dst.length text.length) = dst.drop (min dst.length text.length)

/-- R92: `NewEncoding` refuses other than 64 symbols, and otherwise leaves them in the table, value by value, and the
mode as it was. -/
def Obligations.NewEncodingLoadsTable : Prop :=
  (∀ (alphabet : List Codepoint) (s : State), alphabet.length ≠ 64 →
    newEncoding alphabet s = .next (s, .error .badAlphabet)) ∧
  (∀ (alphabet : List Codepoint) (s : State) (_h : alphabet.length = 64), s.Idle → ParamsOk s.params →
    ∃ t, newEncoding alphabet s = .next (t, .ok ()) ∧ t.mode = s.mode ∧ t.Idle ∧
      ∀ v : Value, alphabet[v.toNat]? = some (tableAt t.fwd v))

/-- R96, R118: what `DecodeString` returns in strict mode for valid, truncated and invalid text, and in lenient mode
for every text. -/
def Obligations.DecodeStringResults : Prop :=
  ∀ (text : List Byte) (s : State), s.Inv → s.Idle → ParamsOk s.params → DistinctTable s.fwd →
    (s.mode = .strict → (∀ sym ∈ symbols text, ∃ v, tableAt s.fwd v = sym) → (symbols text).length % 4 ≠ 1 →
      ∃ t, decodeString text s = .next (t, .ok (decodeBytes ((symbols text).map (valueOrZero s.fwd))))) ∧
    (s.mode = .strict → (∀ sym ∈ symbols text, ∃ v, tableAt s.fwd v = sym) → (symbols text).length % 4 = 1 →
      ∃ t, decodeString text s = .next (t, .error .truncatedInput)) ∧
    (s.mode = .strict → (∃ sym ∈ symbols text, ∀ v, tableAt s.fwd v ≠ sym) →
      ∃ t, decodeString text s = .next (t, .error .invalidSymbol)) ∧
    (s.mode = .lenient →
      ∃ t, decodeString text s = .next (t, .ok (decodeBytesLenient ((symbols text).map (valueOrZero s.fwd)))))

/-- R97: `Decode` copies as many bytes as fit and returns that count, or on an error writes nothing and returns 0 and
the error. -/
def Obligations.DecodeCopies : Prop :=
  (∀ (dst src : List Byte) (e : HostError) (s t : State), decodeString src s = .next (t, .error e) →
    decodeInto dst src s = .next (t, .ok (dst, 0, some e))) ∧
  (∀ (dst src b : List Byte) (s t : State), decodeString src s = .next (t, .ok b) →
    ∃ out, decodeInto dst src s = .next (t, .ok (out, min dst.length b.length, none)) ∧
      out.length = dst.length ∧
      out.take (min dst.length b.length) = b.take (min dst.length b.length) ∧
      out.drop (min dst.length b.length) = dst.drop (min dst.length b.length))
end

