-- ==== Sys2Proof/Laws/Assembler.lean ====
section
/-! SUPPORT. What the assembler's shared readers do: digits read in two parts, the digit characters, a list of
operands. -/

namespace Sys2Proof.Machine

theorem digitsFrom_append (base : Nat) (xs ys : List Char) (acc : Nat) :
    digitsFrom base acc (xs ++ ys) = (digitsFrom base acc xs).bind fun a => digitsFrom base a ys := by
  induction xs generalizing acc with
  | nil => rfl
  | cons c cs ih =>
    simp only [List.cons_append, digitsFrom]
    cases digitValue c with
    | none => rfl
    | some d => dsimp only; split <;> simp [ih]

theorem digitValue_digitChar : ∀ d < 16, digitValue (Nat.digitChar d) = some d := by decide

theorem readAll_eq_some {α : Type} (f : List Char → Option α) (parts : List (List Char)) (as : List α) :
    readAll f parts = some as ↔ parts.map f = as.map some := by
  induction parts generalizing as with
  | nil => cases as <;> simp [readAll]
  | cons p ps ih =>
    cases as with
    | nil => cases hf : f p <;> cases hr : readAll f ps <;> simp [readAll, hf, hr]
    | cons a as => cases hf : f p <;> cases hr : readAll f ps <;> simp [readAll, hf, hr, ← ih]

end Sys2Proof.Machine
end

