-- ==== Sys2Proof/Laws/Decode.lean ====
section
/-! SUPPORT. The fields of an encoded word (30_encoding.md R48 to R53), and what a decoded word looks like
(R56). -/

namespace Sys2Proof

/-! ## Fields of encoded words -/

theorem encode_tblw_fields (idx : Value) (sym : Codepoint) :
    opField (encode (.tblw idx sym)) = 0x1 ∧ idxField (encode (.tblw idx sym)) = idx ∧
      reservedT (encode (.tblw idx sym)) = 0 ∧ symField (encode (.tblw idx sym)) = sym := by
  refine ⟨?_, ?_, ?_, ?_⟩ <;> apply BitVec.eq_of_getLsbD_eq <;> intro i hi <;>
    simp [encode, opField, idxField, reservedT, symField] <;> interval_cases i <;> simp

theorem encode_tblr_fields (idx : Value) :
    opField (encode (.tblr idx)) = 0x2 ∧ idxField (encode (.tblr idx)) = idx ∧
      reservedT (encode (.tblr idx)) = 0 ∧ symField (encode (.tblr idx)) = 0 := by
  refine ⟨?_, ?_, ?_, ?_⟩ <;> apply BitVec.eq_of_getLsbD_eq <;> intro i hi <;>
    simp [encode, opField, idxField, reservedT, symField] <;> interval_cases i <;> simp

theorem encode_lookup_fields (sym : Codepoint) :
    opField (encode (.lookup sym)) = 0x3 ∧ reservedS (encode (.lookup sym)) = 0 ∧
      symField (encode (.lookup sym)) = sym := by
  refine ⟨?_, ?_, ?_⟩ <;> apply BitVec.eq_of_getLsbD_eq <;> intro i hi <;>
    simp [encode, opField, reservedS, symField] <;> interval_cases i <;> simp

theorem encode_dsym_fields (sym : Codepoint) :
    opField (encode (.dsym sym)) = 0x7 ∧ reservedS (encode (.dsym sym)) = 0 ∧
      symField (encode (.dsym sym)) = sym := by
  refine ⟨?_, ?_, ?_⟩ <;> apply BitVec.eq_of_getLsbD_eq <;> intro i hi <;>
    simp [encode, opField, reservedS, symField] <;> interval_cases i <;> simp

theorem encode_ebyte_fields (b : Byte) :
    opField (encode (.ebyte b)) = 0x5 ∧ reservedB (encode (.ebyte b)) = 0 ∧
      byteField (encode (.ebyte b)) = b := by
  refine ⟨?_, ?_, ?_⟩ <;> apply BitVec.eq_of_getLsbD_eq <;> intro i hi <;>
    simp [encode, opField, reservedB, byteField] <;> interval_cases i <;> simp

theorem encode_csrr_fields (csr : CsrNum) :
    opField (encode (.csrr csr)) = 0xA ∧ csrField (encode (.csrr csr)) = csr ∧
      reservedC (encode (.csrr csr)) = 0 ∧ immField (encode (.csrr csr)) = 0 := by
  refine ⟨?_, ?_, ?_, ?_⟩ <;> apply BitVec.eq_of_getLsbD_eq <;> intro i hi <;>
    simp [encode, opField, csrField, reservedC, immField] <;> interval_cases i <;> simp

theorem encode_csrw_fields (csr : CsrNum) (imm : Imm) :
    opField (encode (.csrw csr imm)) = 0xB ∧ csrField (encode (.csrw csr imm)) = csr ∧
      reservedC (encode (.csrw csr imm)) = 0 ∧ immField (encode (.csrw csr imm)) = imm := by
  refine ⟨?_, ?_, ?_, ?_⟩ <;> apply BitVec.eq_of_getLsbD_eq <;> intro i hi <;>
    simp [encode, opField, csrField, reservedC, immField] <;> interval_cases i <;> simp

/-! ## Decoded words -/

/-- Everything a word can decode to: one case for each arm of R56. -/
theorem decode_ok_cases {w : Word} {i : Instr} (h : decode w = .ok i) :
    (opField w = 0x1 ∧ reservedT w = 0 ∧ i = .tblw (idxField w) (symField w)) ∨
    (opField w = 0x2 ∧ reservedT w = 0 ∧ symField w = 0 ∧ i = .tblr (idxField w)) ∨
    (opField w = 0x3 ∧ reservedS w = 0 ∧ i = .lookup (symField w)) ∨
    (opField w = 0x4 ∧ reservedN w = 0 ∧ i = .stdtbl) ∨
    (opField w = 0x5 ∧ reservedB w = 0 ∧ i = .ebyte (byteField w)) ∨
    (opField w = 0x6 ∧ reservedN w = 0 ∧ i = .eend) ∨
    (opField w = 0x7 ∧ reservedS w = 0 ∧ i = .dsym (symField w)) ∨
    (opField w = 0x8 ∧ reservedN w = 0 ∧ i = .dend) ∨
    (opField w = 0x9 ∧ reservedN w = 0 ∧ i = .abort) ∨
    (opField w = 0xA ∧ reservedC w = 0 ∧ immField w = 0 ∧ (csrField w).toNat < 4 ∧ i = .csrr (csrField w)) ∨
    (opField w = 0xB ∧ reservedC w = 0 ∧ (csrField w).toNat < 2 ∧ i = .csrw (csrField w) (immField w)) := by
  have op_eq : ∀ n, (opField w).toNat = n → opField w = BitVec.ofNat 4 n := fun n hn => by simp [← hn]
  unfold decode at h
  split at h <;> rename_i hop <;> try have hop' := op_eq _ hop
  · unfold decodeTblw at h; split at h <;> simp_all
  · unfold decodeTblr at h; split at h <;> (try split at h) <;> simp_all
  · unfold decodeS at h; split at h <;> simp_all
  · unfold decodeN at h; split at h <;> simp_all
  · unfold decodeB at h; split at h <;> simp_all
  · unfold decodeN at h; split at h <;> simp_all
  · unfold decodeS at h; split at h <;> simp_all
  · unfold decodeN at h; split at h <;> simp_all
  · unfold decodeN at h; split at h <;> simp_all
  · unfold decodeCsrr at h; (repeat' split at h) <;> simp_all
  · unfold decodeCsrw at h; (repeat' split at h) <;> simp_all
  · simp at h

end Sys2Proof
end

