-- ==== Sys2Proof/Laws/Operands.lean ====
section
/-! SUPPORT. What the lookups can answer (40_table.md R62 to R64). -/

namespace Sys2Proof.Machine

theorem tableAt_tableSet (fwd : Table) (u v : Value) (sym : Codepoint) :
    tableAt (tableSet fwd u sym) v = if u = v then sym else tableAt fwd v := by
  simp only [tableAt, tableSet, Vector.getElem_set, BitVec.toNat_inj]

theorem mem_allValues (v : Value) : v ∈ allValues :=
  List.mem_map.2 ⟨v.toNat, List.mem_range.2 v.isLt, by simp⟩

theorem nodup_allValues : allValues.Nodup := by decide

/-- `M` of R63 is the set of the values whose entry is the symbol. -/
@[simp] theorem mem_matching (fwd : Table) (sym : Codepoint) (v : Value) :
    v ∈ matching fwd sym ↔ tableAt fwd v = sym := by
  simp [matching, mem_allValues]

theorem nodup_matching (fwd : Table) (sym : Codepoint) : (matching fwd sym).Nodup :=
  nodup_allValues.filter _

theorem matching_eq_nil (fwd : Table) (sym : Codepoint) :
    matching fwd sym = [] ↔ ∀ v, tableAt fwd v ≠ sym := by
  simp [List.eq_nil_iff_forall_not_mem]

/-- Everything a reverse lookup can answer: a miss, the only match, or a hit with the free value. -/
theorem lookup_cases (s : State) (sym : Codepoint) :
    (matching s.fwd sym = [] ∧ s.lookup sym = (false, 0)) ∨
    (∃ v, matching s.fwd sym = [v] ∧ s.lookup sym = (true, v)) ∨
    (∃ u v vs, matching s.fwd sym = u :: v :: vs ∧
      s.lookup sym = (true, Config.dupDraw s.fwd s.drawPoint sym)) := by
  unfold State.lookup
  split
  · exact .inl ⟨‹_›, rfl⟩
  · exact .inr (.inl ⟨_, ‹_›, rfl⟩)
  · exact .inr (.inr ⟨_, _, _, ‹_›, rfl⟩)

/-- Everything the value of a symbol can be (R77): the lookup's on a hit, 0 on a lenient miss, none on a strict
one. -/
theorem symbolValue_cases (s : State) (sym : Codepoint) :
    (∃ v, s.lookup sym = (true, v) ∧ s.symbolValue sym = some v) ∨
    ((s.lookup sym).1 = false ∧ s.mode = .lenient ∧ s.symbolValue sym = some 0) ∨
    ((s.lookup sym).1 = false ∧ s.mode = .strict ∧ s.symbolValue sym = none) := by
  rcases hl : s.lookup sym with ⟨_ | _, v⟩ <;> cases hm : s.mode <;>
    simp [State.symbolValue, hl, hm]

end Sys2Proof.Machine
end

