-- ==== Sys2Proof/Laws/State.lean ====
section
/-! SUPPORT. One lemma for each field under each named update of the state: the later proofs rewrite with these
and unfold no record update. -/

namespace Sys2Proof.Machine

variable (s : State)


/-! ### `State.emit` -/

@[simp] theorem State.emit_params (r : Response) : (s.emit r).params = s.params := rfl
@[simp] theorem State.emit_fwd (r : Response) : (s.emit r).fwd = s.fwd := rfl
@[simp] theorem State.emit_g (r : Response) : (s.emit r).g = s.g := rfl
@[simp] theorem State.emit_ecnt (r : Response) : (s.emit r).ecnt = s.ecnt := rfl
@[simp] theorem State.emit_eopen (r : Response) : (s.emit r).eopen = s.eopen := rfl
@[simp] theorem State.emit_dprev (r : Response) : (s.emit r).dprev = s.dprev := rfl
@[simp] theorem State.emit_dcnt (r : Response) : (s.emit r).dcnt = s.dcnt := rfl
@[simp] theorem State.emit_dopen (r : Response) : (s.emit r).dopen = s.dopen := rfl
@[simp] theorem State.emit_dfail (r : Response) : (s.emit r).dfail = s.dfail := rfl
@[simp] theorem State.emit_mode (r : Response) : (s.emit r).mode = s.mode := rfl
@[simp] theorem State.emit_err (r : Response) : (s.emit r).err = s.err := rfl
@[simp] theorem State.emit_errCause (r : Response) : (s.emit r).errCause = s.errCause := rfl
@[simp] theorem State.emit_errVal (r : Response) : (s.emit r).errVal = s.errVal := rfl
@[simp] theorem State.emit_rspq (r : Response) : (s.emit r).rspq = s.rspq ++ [r] := rfl
@[simp] theorem State.emit_port (r : Response) : (s.emit r).port = s.port := rfl
@[simp] theorem State.emit_host (r : Response) : (s.emit r).host = s.host := rfl
@[simp] theorem State.emit_popped (r : Response) : (s.emit r).popped = s.popped := rfl

/-! ### `State.emitValue` -/

@[simp] theorem State.emitValue_params (v : Value) : (s.emitValue v).params = s.params := rfl
@[simp] theorem State.emitValue_fwd (v : Value) : (s.emitValue v).fwd = s.fwd := rfl
@[simp] theorem State.emitValue_g (v : Value) : (s.emitValue v).g = s.g := rfl
@[simp] theorem State.emitValue_ecnt (v : Value) : (s.emitValue v).ecnt = s.ecnt := rfl
@[simp] theorem State.emitValue_eopen (v : Value) : (s.emitValue v).eopen = s.eopen := rfl
@[simp] theorem State.emitValue_dprev (v : Value) : (s.emitValue v).dprev = s.dprev := rfl
@[simp] theorem State.emitValue_dcnt (v : Value) : (s.emitValue v).dcnt = s.dcnt := rfl
@[simp] theorem State.emitValue_dopen (v : Value) : (s.emitValue v).dopen = s.dopen := rfl
@[simp] theorem State.emitValue_dfail (v : Value) : (s.emitValue v).dfail = s.dfail := rfl
@[simp] theorem State.emitValue_mode (v : Value) : (s.emitValue v).mode = s.mode := rfl
@[simp] theorem State.emitValue_err (v : Value) : (s.emitValue v).err = s.err := rfl
@[simp] theorem State.emitValue_errCause (v : Value) : (s.emitValue v).errCause = s.errCause := rfl
@[simp] theorem State.emitValue_errVal (v : Value) : (s.emitValue v).errVal = s.errVal := rfl
@[simp] theorem State.emitValue_rspq (v : Value) : (s.emitValue v).rspq = s.rspq ++ [.ofSym (tableAt s.fwd v)] := rfl
@[simp] theorem State.emitValue_port (v : Value) : (s.emitValue v).port = s.port := rfl
@[simp] theorem State.emitValue_host (v : Value) : (s.emitValue v).host = s.host := rfl
@[simp] theorem State.emitValue_popped (v : Value) : (s.emitValue v).popped = s.popped := rfl

/-! ### `State.clearError` -/

@[simp] theorem State.clearError_params : (s.clearError).params = s.params := rfl
@[simp] theorem State.clearError_fwd : (s.clearError).fwd = s.fwd := rfl
@[simp] theorem State.clearError_g : (s.clearError).g = s.g := rfl
@[simp] theorem State.clearError_ecnt : (s.clearError).ecnt = s.ecnt := rfl
@[simp] theorem State.clearError_eopen : (s.clearError).eopen = s.eopen := rfl
@[simp] theorem State.clearError_dprev : (s.clearError).dprev = s.dprev := rfl
@[simp] theorem State.clearError_dcnt : (s.clearError).dcnt = s.dcnt := rfl
@[simp] theorem State.clearError_dopen : (s.clearError).dopen = s.dopen := rfl
@[simp] theorem State.clearError_dfail : (s.clearError).dfail = s.dfail := rfl
@[simp] theorem State.clearError_mode : (s.clearError).mode = s.mode := rfl
@[simp] theorem State.clearError_err : (s.clearError).err = false := rfl
@[simp] theorem State.clearError_errCause : (s.clearError).errCause = 0 := rfl
@[simp] theorem State.clearError_errVal : (s.clearError).errVal = 0 := rfl
@[simp] theorem State.clearError_rspq : (s.clearError).rspq = s.rspq := rfl
@[simp] theorem State.clearError_port : (s.clearError).port = s.port := rfl
@[simp] theorem State.clearError_host : (s.clearError).host = s.host := rfl
@[simp] theorem State.clearError_popped : (s.clearError).popped = s.popped := rfl

/-! ### `State.recordError` -/

@[simp] theorem State.recordError_params (c : Cause) (info : Word) : (s.recordError c info).params = s.params := by
  cases h : s.err <;> simp [State.recordError, h]
@[simp] theorem State.recordError_fwd (c : Cause) (info : Word) : (s.recordError c info).fwd = s.fwd := by
  cases h : s.err <;> simp [State.recordError, h]
@[simp] theorem State.recordError_g (c : Cause) (info : Word) : (s.recordError c info).g = s.g := by
  cases h : s.err <;> simp [State.recordError, h]
@[simp] theorem State.recordError_ecnt (c : Cause) (info : Word) : (s.recordError c info).ecnt = s.ecnt := by
  cases h : s.err <;> simp [State.recordError, h]
@[simp] theorem State.recordError_eopen (c : Cause) (info : Word) : (s.recordError c info).eopen = s.eopen := by
  cases h : s.err <;> simp [State.recordError, h]
@[simp] theorem State.recordError_dprev (c : Cause) (info : Word) : (s.recordError c info).dprev = s.dprev := by
  cases h : s.err <;> simp [State.recordError, h]
@[simp] theorem State.recordError_dcnt (c : Cause) (info : Word) : (s.recordError c info).dcnt = s.dcnt := by
  cases h : s.err <;> simp [State.recordError, h]
@[simp] theorem State.recordError_dopen (c : Cause) (info : Word) : (s.recordError c info).dopen = s.dopen := by
  cases h : s.err <;> simp [State.recordError, h]
@[simp] theorem State.recordError_dfail (c : Cause) (info : Word) : (s.recordError c info).dfail = s.dfail := by
  cases h : s.err <;> simp [State.recordError, h]
@[simp] theorem State.recordError_mode (c : Cause) (info : Word) : (s.recordError c info).mode = s.mode := by
  cases h : s.err <;> simp [State.recordError, h]
@[simp] theorem State.recordError_err (c : Cause) (info : Word) : (s.recordError c info).err = true := by
  cases h : s.err <;> simp [State.recordError, h]
@[simp] theorem State.recordError_errCause (c : Cause) (info : Word) : (s.recordError c info).errCause = if s.err then s.errCause else c.code := by
  cases h : s.err <;> simp [State.recordError, h]
@[simp] theorem State.recordError_errVal (c : Cause) (info : Word) : (s.recordError c info).errVal = if s.err then s.errVal else info := by
  cases h : s.err <;> simp [State.recordError, h]
@[simp] theorem State.recordError_rspq (c : Cause) (info : Word) : (s.recordError c info).rspq = s.rspq := by
  cases h : s.err <;> simp [State.recordError, h]
@[simp] theorem State.recordError_port (c : Cause) (info : Word) : (s.recordError c info).port = s.port := by
  cases h : s.err <;> simp [State.recordError, h]
@[simp] theorem State.recordError_host (c : Cause) (info : Word) : (s.recordError c info).host = s.host := by
  cases h : s.err <;> simp [State.recordError, h]
@[simp] theorem State.recordError_popped (c : Cause) (info : Word) : (s.recordError c info).popped = s.popped := by
  cases h : s.err <;> simp [State.recordError, h]

/-! ### `State.report` -/

@[simp] theorem State.report_params (c : Cause) (info : Word) : (s.report c info).params = s.params := by
  simp [State.report]
@[simp] theorem State.report_fwd (c : Cause) (info : Word) : (s.report c info).fwd = s.fwd := by
  simp [State.report]
@[simp] theorem State.report_g (c : Cause) (info : Word) : (s.report c info).g = s.g := by
  simp [State.report]
@[simp] theorem State.report_ecnt (c : Cause) (info : Word) : (s.report c info).ecnt = s.ecnt := by
  simp [State.report]
@[simp] theorem State.report_eopen (c : Cause) (info : Word) : (s.report c info).eopen = s.eopen := by
  simp [State.report]
@[simp] theorem State.report_dprev (c : Cause) (info : Word) : (s.report c info).dprev = s.dprev := by
  simp [State.report]
@[simp] theorem State.report_dcnt (c : Cause) (info : Word) : (s.report c info).dcnt = s.dcnt := by
  simp [State.report]
@[simp] theorem State.report_dopen (c : Cause) (info : Word) : (s.report c info).dopen = s.dopen := by
  simp [State.report]
@[simp] theorem State.report_dfail (c : Cause) (info : Word) : (s.report c info).dfail = s.dfail := by
  simp [State.report]
@[simp] theorem State.report_mode (c : Cause) (info : Word) : (s.report c info).mode = s.mode := by
  simp [State.report]
@[simp] theorem State.report_err (c : Cause) (info : Word) : (s.report c info).err = true := by
  simp [State.report]
@[simp] theorem State.report_errCause (c : Cause) (info : Word) : (s.report c info).errCause = if s.err then s.errCause else c.code := by
  simp [State.report]
@[simp] theorem State.report_errVal (c : Cause) (info : Word) : (s.report c info).errVal = if s.err then s.errVal else info := by
  simp [State.report]
@[simp] theorem State.report_rspq (c : Cause) (info : Word) : (s.report c info).rspq = s.rspq ++ [.ofCause c] := by
  simp [State.report]
@[simp] theorem State.report_port (c : Cause) (info : Word) : (s.report c info).port = s.port := by
  simp [State.report]
@[simp] theorem State.report_host (c : Cause) (info : Word) : (s.report c info).host = s.host := by
  simp [State.report]
@[simp] theorem State.report_popped (c : Cause) (info : Word) : (s.report c info).popped = s.popped := by
  simp [State.report]

/-! ### `State.closeEncoder` -/

@[simp] theorem State.closeEncoder_params : (s.closeEncoder).params = s.params := rfl
@[simp] theorem State.closeEncoder_fwd : (s.closeEncoder).fwd = s.fwd := rfl
@[simp] theorem State.closeEncoder_g : (s.closeEncoder).g = 0 := rfl
@[simp] theorem State.closeEncoder_ecnt : (s.closeEncoder).ecnt = 0 := rfl
@[simp] theorem State.closeEncoder_eopen : (s.closeEncoder).eopen = false := rfl
@[simp] theorem State.closeEncoder_dprev : (s.closeEncoder).dprev = s.dprev := rfl
@[simp] theorem State.closeEncoder_dcnt : (s.closeEncoder).dcnt = s.dcnt := rfl
@[simp] theorem State.closeEncoder_dopen : (s.closeEncoder).dopen = s.dopen := rfl
@[simp] theorem State.closeEncoder_dfail : (s.closeEncoder).dfail = s.dfail := rfl
@[simp] theorem State.closeEncoder_mode : (s.closeEncoder).mode = s.mode := rfl
@[simp] theorem State.closeEncoder_err : (s.closeEncoder).err = s.err := rfl
@[simp] theorem State.closeEncoder_errCause : (s.closeEncoder).errCause = s.errCause := rfl
@[simp] theorem State.closeEncoder_errVal : (s.closeEncoder).errVal = s.errVal := rfl
@[simp] theorem State.closeEncoder_rspq : (s.closeEncoder).rspq = s.rspq := rfl
@[simp] theorem State.closeEncoder_port : (s.closeEncoder).port = s.port := rfl
@[simp] theorem State.closeEncoder_host : (s.closeEncoder).host = s.host := rfl
@[simp] theorem State.closeEncoder_popped : (s.closeEncoder).popped = s.popped := rfl

/-! ### `State.closeDecoder` -/

@[simp] theorem State.closeDecoder_params : (s.closeDecoder).params = s.params := rfl
@[simp] theorem State.closeDecoder_fwd : (s.closeDecoder).fwd = s.fwd := rfl
@[simp] theorem State.closeDecoder_g : (s.closeDecoder).g = s.g := rfl
@[simp] theorem State.closeDecoder_ecnt : (s.closeDecoder).ecnt = s.ecnt := rfl
@[simp] theorem State.closeDecoder_eopen : (s.closeDecoder).eopen = s.eopen := rfl
@[simp] theorem State.closeDecoder_dprev : (s.closeDecoder).dprev = 0 := rfl
@[simp] theorem State.closeDecoder_dcnt : (s.closeDecoder).dcnt = 0 := rfl
@[simp] theorem State.closeDecoder_dopen : (s.closeDecoder).dopen = false := rfl
@[simp] theorem State.closeDecoder_dfail : (s.closeDecoder).dfail = false := rfl
@[simp] theorem State.closeDecoder_mode : (s.closeDecoder).mode = s.mode := rfl
@[simp] theorem State.closeDecoder_err : (s.closeDecoder).err = s.err := rfl
@[simp] theorem State.closeDecoder_errCause : (s.closeDecoder).errCause = s.errCause := rfl
@[simp] theorem State.closeDecoder_errVal : (s.closeDecoder).errVal = s.errVal := rfl
@[simp] theorem State.closeDecoder_rspq : (s.closeDecoder).rspq = s.rspq := rfl
@[simp] theorem State.closeDecoder_port : (s.closeDecoder).port = s.port := rfl
@[simp] theorem State.closeDecoder_host : (s.closeDecoder).host = s.host := rfl
@[simp] theorem State.closeDecoder_popped : (s.closeDecoder).popped = s.popped := rfl

/-! ### `State.placeWord` -/

@[simp] theorem State.placeWord_params (w : Word) : (s.placeWord w).params = s.params := rfl
@[simp] theorem State.placeWord_fwd (w : Word) : (s.placeWord w).fwd = s.fwd := rfl
@[simp] theorem State.placeWord_g (w : Word) : (s.placeWord w).g = s.g := rfl
@[simp] theorem State.placeWord_ecnt (w : Word) : (s.placeWord w).ecnt = s.ecnt := rfl
@[simp] theorem State.placeWord_eopen (w : Word) : (s.placeWord w).eopen = s.eopen := rfl
@[simp] theorem State.placeWord_dprev (w : Word) : (s.placeWord w).dprev = s.dprev := rfl
@[simp] theorem State.placeWord_dcnt (w : Word) : (s.placeWord w).dcnt = s.dcnt := rfl
@[simp] theorem State.placeWord_dopen (w : Word) : (s.placeWord w).dopen = s.dopen := rfl
@[simp] theorem State.placeWord_dfail (w : Word) : (s.placeWord w).dfail = s.dfail := rfl
@[simp] theorem State.placeWord_mode (w : Word) : (s.placeWord w).mode = s.mode := rfl
@[simp] theorem State.placeWord_err (w : Word) : (s.placeWord w).err = s.err := rfl
@[simp] theorem State.placeWord_errCause (w : Word) : (s.placeWord w).errCause = s.errCause := rfl
@[simp] theorem State.placeWord_errVal (w : Word) : (s.placeWord w).errVal = s.errVal := rfl
@[simp] theorem State.placeWord_rspq (w : Word) : (s.placeWord w).rspq = s.rspq := rfl
@[simp] theorem State.placeWord_port (w : Word) : (s.placeWord w).port = some w := rfl
@[simp] theorem State.placeWord_host (w : Word) : (s.placeWord w).host = s.host := rfl
@[simp] theorem State.placeWord_popped (w : Word) : (s.placeWord w).popped = s.popped := rfl

/-! ### `State.takeWord` -/

@[simp] theorem State.takeWord_params : (s.takeWord).params = s.params := rfl
@[simp] theorem State.takeWord_fwd : (s.takeWord).fwd = s.fwd := rfl
@[simp] theorem State.takeWord_g : (s.takeWord).g = s.g := rfl
@[simp] theorem State.takeWord_ecnt : (s.takeWord).ecnt = s.ecnt := rfl
@[simp] theorem State.takeWord_eopen : (s.takeWord).eopen = s.eopen := rfl
@[simp] theorem State.takeWord_dprev : (s.takeWord).dprev = s.dprev := rfl
@[simp] theorem State.takeWord_dcnt : (s.takeWord).dcnt = s.dcnt := rfl
@[simp] theorem State.takeWord_dopen : (s.takeWord).dopen = s.dopen := rfl
@[simp] theorem State.takeWord_dfail : (s.takeWord).dfail = s.dfail := rfl
@[simp] theorem State.takeWord_mode : (s.takeWord).mode = s.mode := rfl
@[simp] theorem State.takeWord_err : (s.takeWord).err = s.err := rfl
@[simp] theorem State.takeWord_errCause : (s.takeWord).errCause = s.errCause := rfl
@[simp] theorem State.takeWord_errVal : (s.takeWord).errVal = s.errVal := rfl
@[simp] theorem State.takeWord_rspq : (s.takeWord).rspq = s.rspq := rfl
@[simp] theorem State.takeWord_port : (s.takeWord).port = none := rfl
@[simp] theorem State.takeWord_host : (s.takeWord).host = s.host := rfl
@[simp] theorem State.takeWord_popped : (s.takeWord).popped = s.popped := rfl

/-! ### `State.drained` -/

@[simp] theorem State.drained_params : (s.drained).params = s.params := rfl
@[simp] theorem State.drained_fwd : (s.drained).fwd = s.fwd := rfl
@[simp] theorem State.drained_g : (s.drained).g = s.g := rfl
@[simp] theorem State.drained_ecnt : (s.drained).ecnt = s.ecnt := rfl
@[simp] theorem State.drained_eopen : (s.drained).eopen = s.eopen := rfl
@[simp] theorem State.drained_dprev : (s.drained).dprev = s.dprev := rfl
@[simp] theorem State.drained_dcnt : (s.drained).dcnt = s.dcnt := rfl
@[simp] theorem State.drained_dopen : (s.drained).dopen = s.dopen := rfl
@[simp] theorem State.drained_dfail : (s.drained).dfail = s.dfail := rfl
@[simp] theorem State.drained_mode : (s.drained).mode = s.mode := rfl
@[simp] theorem State.drained_err : (s.drained).err = s.err := rfl
@[simp] theorem State.drained_errCause : (s.drained).errCause = s.errCause := rfl
@[simp] theorem State.drained_errVal : (s.drained).errVal = s.errVal := rfl
@[simp] theorem State.drained_rspq : (s.drained).rspq = [] := rfl
@[simp] theorem State.drained_port : (s.drained).port = s.port := rfl
@[simp] theorem State.drained_host : (s.drained).host = s.host := rfl
@[simp] theorem State.drained_popped : (s.drained).popped = s.popped ++ s.rspq := rfl

/-! ### `State.withProgram` -/

@[simp] theorem State.withProgram_params (ws : List Word) : (s.withProgram ws).params = s.params := rfl
@[simp] theorem State.withProgram_fwd (ws : List Word) : (s.withProgram ws).fwd = s.fwd := rfl
@[simp] theorem State.withProgram_g (ws : List Word) : (s.withProgram ws).g = s.g := rfl
@[simp] theorem State.withProgram_ecnt (ws : List Word) : (s.withProgram ws).ecnt = s.ecnt := rfl
@[simp] theorem State.withProgram_eopen (ws : List Word) : (s.withProgram ws).eopen = s.eopen := rfl
@[simp] theorem State.withProgram_dprev (ws : List Word) : (s.withProgram ws).dprev = s.dprev := rfl
@[simp] theorem State.withProgram_dcnt (ws : List Word) : (s.withProgram ws).dcnt = s.dcnt := rfl
@[simp] theorem State.withProgram_dopen (ws : List Word) : (s.withProgram ws).dopen = s.dopen := rfl
@[simp] theorem State.withProgram_dfail (ws : List Word) : (s.withProgram ws).dfail = s.dfail := rfl
@[simp] theorem State.withProgram_mode (ws : List Word) : (s.withProgram ws).mode = s.mode := rfl
@[simp] theorem State.withProgram_err (ws : List Word) : (s.withProgram ws).err = s.err := rfl
@[simp] theorem State.withProgram_errCause (ws : List Word) : (s.withProgram ws).errCause = s.errCause := rfl
@[simp] theorem State.withProgram_errVal (ws : List Word) : (s.withProgram ws).errVal = s.errVal := rfl
@[simp] theorem State.withProgram_rspq (ws : List Word) : (s.withProgram ws).rspq = s.rspq := rfl
@[simp] theorem State.withProgram_port (ws : List Word) : (s.withProgram ws).port = s.port := rfl
@[simp] theorem State.withProgram_host (ws : List Word) : (s.withProgram ws).host = ws.map .issue := rfl
@[simp] theorem State.withProgram_popped (ws : List Word) : (s.withProgram ws).popped = s.popped := rfl

/-! ### `State.emitGroup` -/

@[simp] theorem State.emitGroup_params (g : Group) : (s.emitGroup g).params = s.params := rfl
@[simp] theorem State.emitGroup_fwd (g : Group) : (s.emitGroup g).fwd = s.fwd := rfl
@[simp] theorem State.emitGroup_g (g : Group) : (s.emitGroup g).g = 0 := rfl
@[simp] theorem State.emitGroup_ecnt (g : Group) : (s.emitGroup g).ecnt = 0 := rfl
@[simp] theorem State.emitGroup_eopen (g : Group) : (s.emitGroup g).eopen = s.eopen := rfl
@[simp] theorem State.emitGroup_dprev (g : Group) : (s.emitGroup g).dprev = s.dprev := rfl
@[simp] theorem State.emitGroup_dcnt (g : Group) : (s.emitGroup g).dcnt = s.dcnt := rfl
@[simp] theorem State.emitGroup_dopen (g : Group) : (s.emitGroup g).dopen = s.dopen := rfl
@[simp] theorem State.emitGroup_dfail (g : Group) : (s.emitGroup g).dfail = s.dfail := rfl
@[simp] theorem State.emitGroup_mode (g : Group) : (s.emitGroup g).mode = s.mode := rfl
@[simp] theorem State.emitGroup_err (g : Group) : (s.emitGroup g).err = s.err := rfl
@[simp] theorem State.emitGroup_errCause (g : Group) : (s.emitGroup g).errCause = s.errCause := rfl
@[simp] theorem State.emitGroup_errVal (g : Group) : (s.emitGroup g).errVal = s.errVal := rfl
@[simp] theorem State.emitGroup_rspq (g : Group) : (s.emitGroup g).rspq = s.rspq ++ (slice g).map fun v => .ofSym (tableAt s.fwd v) := by
  simp [State.emitGroup, slice]
@[simp] theorem State.emitGroup_port (g : Group) : (s.emitGroup g).port = s.port := rfl
@[simp] theorem State.emitGroup_host (g : Group) : (s.emitGroup g).host = s.host := rfl
@[simp] theorem State.emitGroup_popped (g : Group) : (s.emitGroup g).popped = s.popped := rfl

/-! ### `State.takeValue`: the fields no value changes -/

@[simp] theorem State.takeValue_params (v : Value) : (s.takeValue v).params = s.params := by
  unfold State.takeValue; split <;> rfl
@[simp] theorem State.takeValue_fwd (v : Value) : (s.takeValue v).fwd = s.fwd := by
  unfold State.takeValue; split <;> rfl
@[simp] theorem State.takeValue_g (v : Value) : (s.takeValue v).g = s.g := by
  unfold State.takeValue; split <;> rfl
@[simp] theorem State.takeValue_ecnt (v : Value) : (s.takeValue v).ecnt = s.ecnt := by
  unfold State.takeValue; split <;> rfl
@[simp] theorem State.takeValue_eopen (v : Value) : (s.takeValue v).eopen = s.eopen := by
  unfold State.takeValue; split <;> rfl
@[simp] theorem State.takeValue_dopen (v : Value) : (s.takeValue v).dopen = s.dopen := by
  unfold State.takeValue; split <;> rfl
@[simp] theorem State.takeValue_dfail (v : Value) : (s.takeValue v).dfail = s.dfail := by
  unfold State.takeValue; split <;> rfl
@[simp] theorem State.takeValue_mode (v : Value) : (s.takeValue v).mode = s.mode := by
  unfold State.takeValue; split <;> rfl
@[simp] theorem State.takeValue_err (v : Value) : (s.takeValue v).err = s.err := by
  unfold State.takeValue; split <;> rfl
@[simp] theorem State.takeValue_errCause (v : Value) : (s.takeValue v).errCause = s.errCause := by
  unfold State.takeValue; split <;> rfl
@[simp] theorem State.takeValue_errVal (v : Value) : (s.takeValue v).errVal = s.errVal := by
  unfold State.takeValue; split <;> rfl
@[simp] theorem State.takeValue_port (v : Value) : (s.takeValue v).port = s.port := by
  unfold State.takeValue; split <;> rfl
@[simp] theorem State.takeValue_host (v : Value) : (s.takeValue v).host = s.host := by
  unfold State.takeValue; split <;> rfl
@[simp] theorem State.takeValue_popped (v : Value) : (s.takeValue v).popped = s.popped := by
  unfold State.takeValue; split <;> rfl

/-! ### `State.settleTail`: the fields the end of a message changes in `closeDecoder` only, or not at all -/

@[simp] theorem State.settleTail_params : s.settleTail.1.params = s.params := by
  simp only [State.settleTail]; (repeat' split) <;> simp
@[simp] theorem State.settleTail_fwd : s.settleTail.1.fwd = s.fwd := by
  simp only [State.settleTail]; (repeat' split) <;> simp
@[simp] theorem State.settleTail_g : s.settleTail.1.g = s.g := by
  simp only [State.settleTail]; (repeat' split) <;> simp
@[simp] theorem State.settleTail_ecnt : s.settleTail.1.ecnt = s.ecnt := by
  simp only [State.settleTail]; (repeat' split) <;> simp
@[simp] theorem State.settleTail_eopen : s.settleTail.1.eopen = s.eopen := by
  simp only [State.settleTail]; (repeat' split) <;> simp
@[simp] theorem State.settleTail_dprev : s.settleTail.1.dprev = s.dprev := by
  simp only [State.settleTail]; (repeat' split) <;> simp
@[simp] theorem State.settleTail_dcnt : s.settleTail.1.dcnt = s.dcnt := by
  simp only [State.settleTail]; (repeat' split) <;> simp
@[simp] theorem State.settleTail_dopen : s.settleTail.1.dopen = s.dopen := by
  simp only [State.settleTail]; (repeat' split) <;> simp
@[simp] theorem State.settleTail_dfail : s.settleTail.1.dfail = s.dfail := by
  simp only [State.settleTail]; (repeat' split) <;> simp
@[simp] theorem State.settleTail_mode : s.settleTail.1.mode = s.mode := by
  simp only [State.settleTail]; (repeat' split) <;> simp
@[simp] theorem State.settleTail_port : s.settleTail.1.port = s.port := by
  simp only [State.settleTail]; (repeat' split) <;> simp
@[simp] theorem State.settleTail_host : s.settleTail.1.host = s.host := by
  simp only [State.settleTail]; (repeat' split) <;> simp
@[simp] theorem State.settleTail_popped : s.settleTail.1.popped = s.popped := by
  simp only [State.settleTail]; (repeat' split) <;> simp

/-! ### `State.hostReset` -/

@[simp] theorem State.hostReset_params : s.hostReset.params = s.params := rfl
@[simp] theorem State.hostReset_fwd : s.hostReset.fwd = s.params.stdAlphabet := rfl
@[simp] theorem State.hostReset_g : s.hostReset.g = 0 := rfl
@[simp] theorem State.hostReset_ecnt : s.hostReset.ecnt = 0 := rfl
@[simp] theorem State.hostReset_eopen : s.hostReset.eopen = false := rfl
@[simp] theorem State.hostReset_dprev : s.hostReset.dprev = 0 := rfl
@[simp] theorem State.hostReset_dcnt : s.hostReset.dcnt = 0 := rfl
@[simp] theorem State.hostReset_dopen : s.hostReset.dopen = false := rfl
@[simp] theorem State.hostReset_dfail : s.hostReset.dfail = false := rfl
@[simp] theorem State.hostReset_mode : s.hostReset.mode = .strict := rfl
@[simp] theorem State.hostReset_err : s.hostReset.err = false := rfl
@[simp] theorem State.hostReset_errCause : s.hostReset.errCause = 0 := rfl
@[simp] theorem State.hostReset_errVal : s.hostReset.errVal = 0 := rfl
@[simp] theorem State.hostReset_rspq : s.hostReset.rspq = [] := rfl
@[simp] theorem State.hostReset_port : s.hostReset.port = none := rfl
@[simp] theorem State.hostReset_host : s.hostReset.host = s.host := rfl
@[simp] theorem State.hostReset_popped : s.hostReset.popped = s.popped := rfl

end Sys2Proof.Machine
end

