-- ==== Sys2Proof/Laws/Ops.lean ====
section
/-! SUPPORT. What each shared operation can do, said once. -/

namespace Sys2Proof.Machine

/-- The error procedure is R100 written out. -/
theorem report_eq_withError (c : Cause) (info : Word) (s : State) :
    s.report c info = s.withError c.code info := by
  cases s with
  | mk =>
    rename_i err _ _ _ _ _ _
    cases err <;> simp [State.report, State.recordError, State.emit, State.withError, Response.ofCause]

theorem busy_eq_true (s : State) : s.busy = true ↔ s.eopen = true ∨ s.dopen = true := by
  simp [State.busy]

theorem busy_eq_false (s : State) : s.busy = false ↔ s.eopen = false ∧ s.dopen = false := by
  simp [State.busy]

/-- R116: room is four free slots. -/
theorem hasRoom_iff (s : State) : s.hasRoom = true ↔ s.rspq.length + 4 ≤ s.params.rspqDepth := by
  simp only [State.hasRoom, decide_eq_true_eq]
  omega

/-- A pop takes the head, and there is one to take (R117). -/
theorem hostPop_next (s t : State) :
    hostPop s = .next t ↔
      ∃ r q, s.rspq = r :: q ∧ t = { s with rspq := q, popped := s.popped ++ [r] } := by
  unfold hostPop
  split <;> simp_all [eq_comm]

/-- The responses one value adds to the queue (R80). -/
theorem takeValue_rspq (s : State) (v : Value) :
    (s.takeValue v).rspq = s.rspq ∨ ∃ b, (s.takeValue v).rspq = s.rspq ++ [.ofByte b] := by
  unfold State.takeValue
  split
  · exact .inl rfl
  all_goals exact .inr ⟨_, rfl⟩

/-- What the end of a decoder message does before `DONE` (R81). -/
theorem settleTail_cases (s : State) :
    (s.dfail = true ∧ s.settleTail = (s, 1)) ∨
    (s.dfail = false ∧ s.dcnt = 1 ∧ s.mode = .strict ∧
      s.settleTail = (s.report .truncatedInput (s.dprev.setWidth 32), 2)) ∨
    (s.dfail = false ∧ s.dcnt = 1 ∧ s.mode = .lenient ∧
      s.settleTail = (s.emit (.ofByte (packByte0 s.dprev 0)), 0)) ∨
    (s.dfail = false ∧ s.dcnt ≠ 1 ∧ s.settleTail = (s, 0)) := by
  unfold State.settleTail
  cases s.dfail <;> by_cases h : s.dcnt = 1 <;> cases s.mode <;> simp [h]

end Sys2Proof.Machine
end

