-- ==== Sys2Proof/Laws/PerInstr.lean ====
section
/-! SUPPORT. The statements made for every instruction, one lemma a constructor. Family `TableRow`: the
encoding of an instruction has the fixed bits its row of `opcode_table.json` gives. -/

namespace Sys2Proof.Laws

/-- The `mask` of an instruction's row in `opcode_table.json`. -/
def rowMask : Instr → Word
  | .tblw _ _ => 0xF0200000
  | .tblr _ => 0xF03FFFFF
  | .lookup _ => 0xFFE00000
  | .stdtbl => 0xFFFFFFFF
  | .ebyte _ => 0xFFFFFF00
  | .eend => 0xFFFFFFFF
  | .dsym _ => 0xFFE00000
  | .dend => 0xFFFFFFFF
  | .abort => 0xFFFFFFFF
  | .csrr _ => 0xF0FFFFFF
  | .csrw _ _ => 0xF0FF0000

/-- The `match` of an instruction's row in `opcode_table.json`. -/
def rowMatch : Instr → Word
  | .tblw _ _ => 0x10000000
  | .tblr _ => 0x20000000
  | .lookup _ => 0x30000000
  | .stdtbl => 0x40000000
  | .ebyte _ => 0x50000000
  | .eend => 0x60000000
  | .dsym _ => 0x70000000
  | .dend => 0x80000000
  | .abort => 0x90000000
  | .csrr _ => 0xA0000000
  | .csrw _ _ => 0xB0000000

namespace TableRow

/-- Under the row's mask, the instruction's word is the row's match. -/
def Statement (i : Instr) : Prop := encode i &&& rowMask i = rowMatch i

theorem tblw (idx : Value) (sym : Codepoint) : Statement (.tblw idx sym) := by
  apply BitVec.eq_of_getLsbD_eq; intro k hk
  interval_cases k <;> simp [encode, rowMask, rowMatch]

theorem tblr (idx : Value) : Statement (.tblr idx) := by
  apply BitVec.eq_of_getLsbD_eq; intro k hk
  interval_cases k <;> simp [encode, rowMask, rowMatch]

theorem lookup (sym : Codepoint) : Statement (.lookup sym) := by
  apply BitVec.eq_of_getLsbD_eq; intro k hk
  interval_cases k <;> simp [encode, rowMask, rowMatch]

theorem stdtbl : Statement .stdtbl := by
  show encode .stdtbl &&& rowMask .stdtbl = rowMatch .stdtbl
  decide

theorem ebyte (b : Byte) : Statement (.ebyte b) := by
  apply BitVec.eq_of_getLsbD_eq; intro k hk
  interval_cases k <;> simp [encode, rowMask, rowMatch]

theorem eend : Statement .eend := by
  show encode .eend &&& rowMask .eend = rowMatch .eend
  decide

theorem dsym (sym : Codepoint) : Statement (.dsym sym) := by
  apply BitVec.eq_of_getLsbD_eq; intro k hk
  interval_cases k <;> simp [encode, rowMask, rowMatch]

theorem dend : Statement .dend := by
  show encode .dend &&& rowMask .dend = rowMatch .dend
  decide

theorem abort : Statement .abort := by
  show encode .abort &&& rowMask .abort = rowMatch .abort
  decide

theorem csrr (csr : CsrNum) : Statement (.csrr csr) := by
  apply BitVec.eq_of_getLsbD_eq; intro k hk
  interval_cases k <;> simp [encode, rowMask, rowMatch]

theorem csrw (csr : CsrNum) (imm : Imm) : Statement (.csrw csr imm) := by
  apply BitVec.eq_of_getLsbD_eq; intro k hk
  interval_cases k <;> simp [encode, rowMask, rowMatch]

end TableRow

end Sys2Proof.Laws
end

