-- ==== Sys2Proof/Laws/Step.lean ====
section
/-! SUPPORT. What a command and a step can do, said once. -/

namespace Sys2Proof.Machine

/-- A command changes neither the parameters nor the port, the host's actions or what the host has popped. -/
theorem exec_outside {i : Instr} {s t : State} (h : exec i s = .next t) :
    t.params = s.params ∧ t.port = s.port ∧ t.host = s.host ∧ t.popped = s.popped := by
  cases i <;>
    simp only [exec, execTblw, execTblr, execLookup, execStdtbl, execEbyte, execEend, execDsym, execDend,
      execAbort, execCsrr, execCsrw] at h <;>
    (repeat' split at h) <;> cases h <;> simp

/-- What an accepted word does: its command, or `IllegalCommand` and nothing else (R101). -/
theorem runWord_cases (w : Word) (s : State) :
    (∃ i, decode w = .ok i ∧ runWord w s = exec i s) ∨
    (∃ e, decode w = .error e ∧ runWord w s = .next (s.withError 3 w)) := by
  unfold runWord
  split
  · exact .inl ⟨_, ‹_›, rfl⟩
  · exact .inr ⟨_, ‹_›, by rw [report_eq_withError]; rfl⟩

/-- Everything a step that goes on can be: the block accepts the word at the port, the block waits with nothing to
do, or the host issues, pops or resets. A command is held exactly when the port is not empty in the last two. -/
theorem step_cases {s t : State} (h : step s = .next t) :
    (∃ w, s.port = some w ∧ s.rspq.length + 4 ≤ s.params.rspqDepth ∧ runWord w s.takeWord = .next t) ∨
    (s.port = none ∧ s.host = [] ∧ t = s) ∨
    (∃ w rest, s.port = none ∧ s.host = .issue w :: rest ∧ t = { s.placeWord w with host := rest }) ∨
    (∃ r q rest, (s.port ≠ none → s.params.rspqDepth < s.rspq.length + 4) ∧ s.host = .pop :: rest ∧
      s.rspq = r :: q ∧ t = { s with rspq := q, popped := s.popped ++ [r], host := rest }) ∨
    (∃ rest, (s.port ≠ none → s.params.rspqDepth < s.rspq.length + 4) ∧ s.host = .reset :: rest ∧
      t = ({ s with host := rest } : State).hostReset) := by
  unfold step portStep at h
  split at h
  · rename_i hp
    unfold hostTurn at h
    split at h
    · cases h; exact .inr (.inl ⟨hp, ‹_›, rfl⟩)
    · cases h; exact .inr (.inr (.inl ⟨_, _, hp, ‹_›, rfl⟩))
    · obtain ⟨r, q, hq, rfl⟩ := (hostPop_next _ _).1 h
      exact .inr (.inr (.inr (.inl ⟨r, q, _, fun hn => absurd hp hn, ‹_›, hq, rfl⟩)))
    · cases h; exact .inr (.inr (.inr (.inr ⟨_, fun hn => absurd hp hn, ‹_›, rfl⟩)))
  · rename_i w hp
    split at h
    · exact .inl ⟨w, hp, (hasRoom_iff s).1 ‹_›, h⟩
    · have held : s.params.rspqDepth < s.rspq.length + 4 := by
        have := mt (hasRoom_iff s).2 ‹_›
        omega
      unfold heldTurn at h
      split at h
      · cases h
      · cases h
      · obtain ⟨r, q, hq, rfl⟩ := (hostPop_next _ _).1 h
        exact .inr (.inr (.inr (.inl ⟨r, q, _, fun _ => held, ‹_›, hq, rfl⟩)))
      · cases h; exact .inr (.inr (.inr (.inr ⟨_, fun _ => held, ‹_›, rfl⟩)))

end Sys2Proof.Machine
end

