-- ==== Sys2Proof/Tests/Slice0.lean ====
section
/-! SUPPORT. The model's own tests. Expected results are the spec's: 95_test_vectors.md, or the example lines of
the rules, as each comment says. Last, one witness for the hypotheses of each statement that has any. -/

open Sys2Proof Sys2Proof.Machine

namespace Sys2Proof.Tests

/-! ## Helpers -/

/-- The state a command or step leaves, where it goes on. -/
def after : Host.Outcome State Fault Refusal → Option State
  | .next s => some s
  | .fault _ => none
  | .refused _ => none

/-- The responses in the queue a command leaves. -/
def answers (i : Instr) (s : State) : Option (List Response) := (after (exec i s)).map (·.rspq)

/-- What a run of commands answers. -/
def replies (is : List Instr) (s : State) : Option (List Response) :=
  match hostRun is s with
  | .next (_, rs) => some rs
  | .fault _ => none
  | .refused _ => none

/-! ## Well-formedness: one ill-formed term for each check (R52) -/

theorem test_wellFormed_csrr : Instr.wellFormed (.csrr 4) = false ∧ Instr.wellFormed (.csrr 3) = true := by decide

theorem test_wellFormed_csrw : Instr.wellFormed (.csrw 2 0) = false ∧ Instr.wellFormed (.csrw 1 0) = true := by
  decide

/-! ## Decoding: words written out bit by bit from R48 to R52, and the illegal words of vectors section 2 -/

/-- op 0001, idx 010000, reserved 0, sym 0x41. -/
theorem test_decode_tblw : decode 0b00010100000000000000000001000001#32 = .ok (.tblw 16 0x41) := by decide

/-- op 0010, idx 111111, reserved 0, sym 0. -/
theorem test_decode_tblr : decode 0b00101111110000000000000000000000#32 = .ok (.tblr 63) := by decide

/-- op 0011, reserved 0000000, sym all ones. -/
theorem test_decode_lookup : decode 0b00110000000111111111111111111111#32 = .ok (.lookup 0x1FFFFF) := by decide

theorem test_decode_stdtbl : decode 0b01000000000000000000000000000000#32 = .ok .stdtbl := by decide

/-- op 0101, reserved 20 zeros, byte 11111111. -/
theorem test_decode_ebyte : decode 0b01010000000000000000000011111111#32 = .ok (.ebyte 0xFF) := by decide

theorem test_decode_eend : decode 0b01100000000000000000000000000000#32 = .ok .eend := by decide

/-- op 0111, reserved 0000000, sym 0x1F63F. -/
theorem test_decode_dsym : decode 0b01110000000000011111011000111111#32 = .ok (.dsym 0x1F63F) := by decide

theorem test_decode_dend : decode 0b10000000000000000000000000000000#32 = .ok .dend := by decide

theorem test_decode_abort : decode 0b10010000000000000000000000000000#32 = .ok .abort := by decide

/-- op 1010, csr 0011, reserved and imm 0. -/
theorem test_decode_csrr : decode 0b10100011000000000000000000000000#32 = .ok (.csrr 3) := by decide

/-- op 1011, csr 0001, reserved 0, imm 0x0001. -/
theorem test_decode_csrw : decode 0b10110001000000000000000000000001#32 = .ok (.csrw 1 1) := by decide

/-- Vectors section 2: the illegal words, each with the condition of R54 that makes it so. -/
theorem test_decode_illegal :
    decode 0x00000000#32 = .error .opcode ∧ decode 0x1021F600#32 = .error .reserved ∧
    decode 0x24000001#32 = .error .tblrSym ∧ decode 0x3021F610#32 = .error .reserved ∧
    decode 0x40000001#32 = .error .reserved ∧ decode 0x50000100#32 = .error .reserved ∧
    decode 0xA4000000#32 = .error .csrNumber ∧ decode 0xA1000001#32 = .error .csrrImm ∧
    decode 0xB2000000#32 = .error .csrNumber ∧ decode 0xB0010000#32 = .error .reserved ∧
    decode 0xC0000000#32 = .error .opcode ∧ decode 0xFFFFFFFF#32 = .error .opcode := by decide

theorem test_decodeTableWord : decodeTableWord 32 0x14000041 = some (.tblw 16 0x41) ∧
    decodeTableWord 32 0 = none := by decide

/-- The word at the port is what the next step runs. -/
theorem test_withFetchWord : (after (step (State.reset.withFetchWord 32 0x14000041))).map
    (fun s => (tableAt s.fwd 16, s.port)) = some (0x41#21, none) := by decide

/-! ## One small run for each command -/

/-- Vectors 3.1: the entry is written, its neighbour is not. -/
theorem test_tblw : (after (exec (.tblw 16 0x41) State.reset)).map
    (fun s => (tableAt s.fwd 16, tableAt s.fwd 17)) = some (0x41#21, 0x1F611#21) := by decide

/-- Vectors 3.1, Busy: the table stays, cause 4, the record is the word. -/
theorem test_tblw_busy : (after (exec (.tblw 0 0x41) { State.reset with eopen := true })).map
    (fun s => (tableAt s.fwd 0, s.errCause, s.errVal)) = some (0x1F600#21, 4#4, 0x10000041#32) := by decide

/-- R67's example. -/
theorem test_tblr : answers (.tblr 63) State.reset = some [{ kind := .data, data := 0x0001F63F }] := by decide

/-- R68's examples: value 16 hit, and a miss. -/
theorem test_lookup : answers (.lookup 0x1F610) State.reset = some [{ kind := .val, data := 0x110 }] ∧
    answers (.lookup 0x41) State.reset = some [{ kind := .val, data := 0 }] := by decide

/-- R69's example. -/
theorem test_stdtbl : (after (exec .stdtbl { State.reset with fwd := tableSet State.reset.fwd 0 0x41 })).map
    (fun s => tableAt s.fwd 0) = some 0x1F600#21 := by decide

/-- R75's example: "Man", values 19, 22, 5, 46. -/
theorem test_ebyte : replies [.ebyte 0x4D, .ebyte 0x61, .ebyte 0x6E] State.reset =
    some [{ kind := .sym, data := 0x1F613 }, { kind := .sym, data := 0x1F616 },
      { kind := .sym, data := 0x1F605 }, { kind := .sym, data := 0x1F62E }] := by decide

/-- Vectors 3.3: one byte 0x03 and its zero fill (values 0, 48); two bytes 0xFF (values 63, 63, 60). -/
theorem test_eend : replies (encMsg [0x03]) State.reset =
      some [{ kind := .sym, data := 0x1F600 }, { kind := .sym, data := 0x1F630 }] ∧
    replies (encMsg [0xFF, 0xFF]) State.reset =
      some [{ kind := .sym, data := 0x1F63F }, { kind := .sym, data := 0x1F63F },
        { kind := .sym, data := 0x1F63C }] := by decide

/-- Vectors 3.4: values 19, 22, then 0x41, which is in no entry: the byte stays, then `InvalidSymbol`. -/
theorem test_dsym_invalid : replies (decMsg [0x1F613, 0x1F616, 0x41, 0x1F605]) State.reset =
    some [{ kind := .byte, data := 0x4D }, { kind := .err, data := 1 }, { kind := .done, data := 1 }] := by decide

/-- Vectors 3.5: values 19, unknown, 5, 46 in lenient mode. -/
theorem test_dsym_lenient : replies (decMsg [0x1F613, 0x41, 0x1F605, 0x1F62E]) { State.reset with mode := .lenient } =
    some [{ kind := .byte, data := 0x4C }, { kind := .byte, data := 0x01 }, { kind := .byte, data := 0x6E },
      { kind := .done, data := 0 }] := by decide

/-- R81's examples: one symbol, strict and lenient. -/
theorem test_dend : replies (decMsg [0x1F610]) State.reset =
      some [{ kind := .err, data := 2 }, { kind := .done, data := 2 }] ∧
    replies (decMsg [0x1F610]) { State.reset with mode := .lenient } =
      some [{ kind := .byte, data := 0x40 }, { kind := .done, data := 0 }] := by decide

/-- R85's example: the byte was dropped. -/
theorem test_abort : replies [.ebyte 0x41, .abort, .eend] State.reset = some [] := by decide

/-- Vectors 3.3 and 3.6: `STATUS` after one byte, and after an invalid `DSYM`. -/
theorem test_csrr : replies [.ebyte 0x41, .csrr 1] State.reset = some [{ kind := .data, data := 0x12 }] ∧
    replies [.dsym 0x41, .csrr 1, .csrr 3] State.reset =
      some [{ kind := .err, data := 1 }, { kind := .data, data := 0x0D }, { kind := .data, data := 0x41 }] := by decide

/-- Vectors 3.6: only bit 0 of `CTRL` is written. -/
theorem test_csrw_ctrl : replies [.csrw 0 0xFFFF, .csrr 0, .csrw 0 2, .csrr 0] State.reset =
    some [{ kind := .data, data := 1 }, { kind := .data, data := 0 }] := by decide

/-- Vectors 3.6: writing 0 to `ERR` keeps the record, writing 1 clears it; `DFAIL` stays. -/
theorem test_csrw_status : replies [.dsym 0x41, .csrw 1 0xFFFE, .csrr 1, .csrw 1 1, .csrr 1, .csrr 2] State.reset =
    some [{ kind := .err, data := 1 }, { kind := .data, data := 0x0D }, { kind := .data, data := 0x0C },
      { kind := .data, data := 0 }] := by decide

/-! ## The datapath, the port, the responses -/

/-- Vectors 3.2 and 3.8. -/
theorem test_slice_pack : slice 0x123456#24 = [4, 35, 17, 22] ∧ slice 0xFC0FC0#24 = [63, 0, 63, 0] ∧
    (packByte0 1 2, packByte1 2 3, packByte2 3 4) = (0x04#8, 0x20#8, 0xC4#8) := by decide

/-- Vectors 3.7: with a queue of four, the command after a full group is held, and stuck if the host stops. -/
theorem test_hold :
    let full : State := { State.reset with
      params := { Config.defaultParams with rspqDepth := 4 }
      rspq := List.replicate 4 { kind := .sym, data := 0x1F600 }, port := some 0xA1000000#32 }
    (∃ f, step full = .fault f) ∧
      (after (step { full with host := [.pop] })).map (fun s => (s.rspq.length, s.port)) = some (3, some 0xA1000000#32) :=
  ⟨⟨.portHung, rfl⟩, by decide⟩

/-- R57: `{ERR, 3}` as 36 bits. -/
theorem test_toWord : (Response.ofCause .illegalCommand).toWord = 0x500000003#36 ∧
    (Response.ofLookup true 16).toWord = 0x300000110#36 := by decide

/-! ## Assembler and host functions -/

/-- R58, R59, and vectors section 4 P2 and P4. -/
theorem test_assembleLine :
    assembleLine "TBLW   5, 0x2605        ; Busy".toList = some [0x11402605#32] ∧
    assembleLine "DSYM U+1F610".toList = some [0x7001F610#32] ∧
    assembleLine ".word 0x1021F600".toList = some [0x1021F600#32] ∧
    assembleLine "ENCMSG 0x4D, 97".toList = some [0x5000004D#32, 0x50000061#32, 0x60000000#32] ∧
    assembleLine "CSRW STATUS, 0x0001".toList = some [0xB1000001#32] := by decide

/-- R58: operands out of range, and a symbol of three digits, are refused. -/
theorem test_assemble_refuses :
    assembleLine "TBLR 64".toList = none ∧ assembleLine "EBYTE 256".toList = none ∧
    assembleLine "DSYM U+605".toList = none ∧ assembleLine "LOOKUP 0x200000".toList = none ∧
    assembleLine "TBLLOAD 1, 2".toList = none := by decide

/-- Vectors W8: `Encode` of 0x41 into five bytes. -/
theorem test_encodeInto : (match encodeInto [0, 0, 0, 0, 0] [0x41] State.reset with
    | .next (_, .ok out) => out | _ => []) = [0xF0, 0x9F, 0x98, 0x90, 0xF0] := by decide

/-- R91: a sequence, an ill-formed byte, a byte. -/
theorem test_symbols : symbols [0xE2, 0x98, 0x85, 0xFF, 0x41] = [0x2605, 0xFFFD, 0x41] := by decide

/-! ## Witnesses -/

/-- A table that is not the standard one: value `i` maps to codepoint `0x100 + i`. -/
def demoTable : Table := Vector.ofFn fun i => BitVec.ofNat 21 (0x100 + i.val)

/-- A state with no message open, that table, an older error and one response still queued. -/
def demo (m : Mode) : State :=
  { State.reset with
    fwd := demoTable, mode := m, err := true, errCause := 3, errVal := 7
    rspq := [{ kind := .err, data := 3 }] }

theorem demo_at (v : Value) : tableAt demoTable v = 0x100#21 + v.setWidth 21 := by
  simp [tableAt, demoTable, BitVec.toNat_eq]

theorem demo_distinct (m : Mode) : DistinctTable (demo m).fwd := by
  intro u v h
  have hn := congrArg BitVec.toNat h
  have hu := u.isLt
  have hv := v.isLt
  simp only [demo, demo_at, BitVec.toNat_add, BitVec.toNat_setWidth, BitVec.toNat_ofNat] at hn
  exact BitVec.eq_of_toNat_eq (by omega)

theorem demo_inv (m : Mode) : (demo m).Inv := by
  constructor <;> simp [demo, State.reset, State.resetWith, Config.defaultParams]

theorem demo_idle (m : Mode) : (demo m).Idle := ⟨rfl, rfl, rfl⟩

theorem demo_params (m : Mode) : ParamsOk (demo m).params := by
  show 4 ≤ 8
  decide

theorem demo_not_in (m : Mode) (v : Value) : tableAt (demo m).fwd v ≠ 0x41#21 := by
  simp only [demo, demo_at, ne_eq, BitVec.toNat_eq, BitVec.toNat_add, BitVec.toNat_setWidth, BitVec.toNat_ofNat]
  omega

theorem witness_DecodeOfEncode : Instr.wellFormed (.csrr 3) = true ∧ Instr.wellFormed (.csrw 1 0xFFFF) = true ∧
    Instr.wellFormed (.tblw 63 0x1FFFFF) = true := by decide

/-- `EncodeOfDecode`; with `OperandFields`, whose every case has its word in the `test_decode_` theorems above. -/
theorem witness_EncodeOfDecode : decode 0xB100FFFF#32 = .ok (.csrw 1 0xFFFF) := by decide

/-- One word for each condition of R54, at the edge of its range. -/
theorem witness_IllegalWordsRaise : IllegalWord 0x00000000#32 ∧ IllegalWord 0xC0000000#32 ∧
    IllegalWord 0x10200000#32 ∧ IllegalWord 0x70200000#32 ∧ IllegalWord 0x50000100#32 ∧ IllegalWord 0x90000001#32 ∧
    IllegalWord 0xB0010000#32 ∧ IllegalWord 0x20000001#32 ∧ IllegalWord 0xA0000001#32 ∧ IllegalWord 0xA4000000#32 ∧
    IllegalWord 0xB2000000#32 := by
  simp [IllegalWord]

/-- The queue of `demo` filled to `n` responses, with a word at the port. -/
def queued (n : Nat) (w : Option Word) (acts : List HostAction) : State :=
  { demo .strict with rspq := List.replicate n { kind := .data, data := 5 }, port := w, host := acts }

theorem witness_HostResetRule :
    (queued 5 none [.reset]).host = .reset :: [] ∧ (queued 5 none [.reset]).port = none ∧
    (queued 5 (some 0) [.reset, .pop]).host = .reset :: [.pop] ∧
    (queued 5 (some 0) [.reset, .pop]).params.rspqDepth < (queued 5 (some 0) [.reset, .pop]).rspq.length + 4 := by
  decide

theorem witness_StepRunsDecoded : (queued 4 (some 0x40000000) []).port = some 0x40000000#32 ∧
    (queued 4 (some 0x40000000) []).rspq.length + 4 ≤ (queued 4 (some 0x40000000) []).params.rspqDepth ∧
    decode 0x40000000#32 = .ok .stdtbl := by decide

theorem witness_HoldRule :
    ((queued 4 (some 0) []).port = some 0#32 ∧
      (queued 4 (some 0) []).rspq.length + 4 ≤ (queued 4 (some 0) []).params.rspqDepth) ∧
    ((queued 5 (some 0) [.pop]).port ≠ none ∧
      (queued 5 (some 0) [.pop]).params.rspqDepth < (queued 5 (some 0) [.pop]).rspq.length + 4 ∧
      (after (step (queued 5 (some 0) [.pop]))).isSome = true) ∧
    ((queued 5 (some 0) []).params.rspqDepth < (queued 5 (some 0) []).rspq.length + 4 ∧
      ∀ rest, (queued 5 (some 0) []).host ≠ .pop :: rest ∧ (queued 5 (some 0) []).host ≠ .reset :: rest) ∧
    (after (runWord 0x5000006E#32 { queued 4 none [] with ecnt := 2 })).isSome = true := by
  refine ⟨by decide, by decide, ⟨by decide, fun rest => ⟨?_, ?_⟩⟩, by decide⟩ <;> simp [queued]

theorem witness_HostPopRule :
    ((queued 1 none [.pop]).rspq = { kind := .data, data := 5 } :: [] ∧ (queued 1 none [.pop]).port = none) ∧
    (queued 5 (some 0) [.pop]).params.rspqDepth < (queued 5 (some 0) [.pop]).rspq.length + 4 ∧
    (queued 0 none [.pop]).rspq = [] := by decide

theorem witness_HostIssueRule : (queued 1 none [.issue 7]).host = .issue 7 :: [] ∧
    (queued 1 none []).host = [] ∧ (queued 1 none []).port = none := by decide

/-- A missing symbol, one in a single entry, one in two entries. -/
theorem witness_ReverseLookup :
    (∀ v, tableAt (demo .strict).fwd v ≠ 0x41#21) ∧
    (tableAt (demo .strict).fwd 63 = 0x13F#21 ∧ ∀ u, tableAt (demo .strict).fwd u = 0x13F#21 → u = 63) ∧
    (tableAt (tableSet demoTable 1 0x100) 0 = 0x100#21 ∧ tableAt (tableSet demoTable 1 0x100) 1 = 0x100#21) :=
  ⟨demo_not_in .strict, ⟨by decide, fun u h => demo_distinct .strict u 63 (h.trans (by decide))⟩, by decide⟩

theorem witness_LookupInverse : DistinctTable (demo .strict).fwd ∧
    (demo .strict).lookup 0x13F = (true, 63) ∧
    DistinctTable (State.resetWith { Config.defaultParams with stdAlphabet := demoTable }).params.stdAlphabet ∧
    (after (exec .stdtbl (State.resetWith { Config.defaultParams with stdAlphabet := demoTable }))).isSome = true :=
  ⟨demo_distinct .strict, by decide, demo_distinct .strict, by decide⟩

theorem witness_WriteThenLookup : (demo .strict).eopen = false ∧ (demo .strict).dopen = false ∧
    ∀ v : Value, v ≠ 3 → tableAt (demo .strict).fwd v ≠ 0x41#21 :=
  ⟨rfl, rfl, fun v _ => demo_not_in .strict v⟩

/-- A free state, a state with each message open, and an illegal word of the format. -/
theorem witness_TblwEffect : (demo .strict).eopen = false ∧ (demo .strict).dopen = false ∧
    decode 0x1FDFFFFF#32 = .ok (.tblw 63 0x1FFFFF) ∧ ({ demo .strict with eopen := true } : State).eopen = true ∧
    ({ demo .strict with dopen := true } : State).dopen = true ∧
    (0x10200000#32).extractLsb' 28 4 = 0x1#4 ∧ (0x10200000#32).extractLsb' 21 1 ≠ 0#1 := by decide

theorem witness_TblrEffect : (0x20200000#32).extractLsb' 28 4 = 0x2#4 ∧ (0x20200000#32).extractLsb' 21 1 ≠ 0#1 ∧
    (0x20000001#32).extractLsb' 28 4 = 0x2#4 ∧ (0x20000001#32).extractLsb' 0 21 ≠ 0#21 := by decide

theorem witness_LookupEffect : (∀ v, tableAt (demo .strict).fwd v ≠ 0x41#21) ∧
    (0x30200000#32).extractLsb' 28 4 = 0x3#4 ∧ (0x30200000#32).extractLsb' 21 7 ≠ 0#7 :=
  ⟨demo_not_in .strict, by decide⟩

theorem witness_StdtblEffect : (demo .strict).eopen = false ∧ (demo .strict).dopen = false ∧
    decode 0x40000000#32 = .ok .stdtbl ∧ ({ demo .strict with dopen := true } : State).dopen = true ∧
    (0x40000001#32).extractLsb' 28 4 = 0x4#4 ∧ (0x40000001#32).extractLsb' 0 28 ≠ 0#28 := by decide

/-- Reachable states with one and two bytes held. -/
def holding (n : Fin 3) : State :=
  { demo .strict with
    ecnt := n, eopen := true
    g := if n = 0 then 0 else if n = 1 then 0xFF0000 else 0xFFFF00 }

theorem holding_one_inv : (holding 1).Inv := by
  constructor <;> simp [holding, demo, State.reset, State.resetWith, Config.defaultParams]

theorem witness_EbyteEffect : (holding 0).ecnt = 0 ∧ (holding 1).ecnt = 1 ∧ (holding 2).ecnt = 2 ∧
    (0x50000100#32).extractLsb' 28 4 = 0x5#4 ∧ (0x50000100#32).extractLsb' 8 20 ≠ 0#20 := by decide

theorem witness_EendEffect : ((holding 0).ecnt = 0 ∧ (after (exec (.ebyte 0xFF) (holding 0))).isSome = true) ∧
    ((holding 1).ecnt = 1 ∧ (holding 1).Inv ∧ (after (exec (.ebyte 0xFF) (holding 1))).isSome = true) ∧
    (0x60000001#32).extractLsb' 28 4 = 0x6#4 ∧ (0x60000001#32).extractLsb' 0 28 ≠ 0#28 :=
  ⟨by decide, ⟨by decide, holding_one_inv, by decide⟩, by decide⟩

/-- `EncodeMessage`, `MessagesArePure` and `RoundTrip`: two idle states under one table, in the two modes. -/
theorem witness_messages : ((demo .strict).Inv ∧ (demo .strict).Idle ∧ ParamsOk (demo .strict).params) ∧
    ((demo .lenient).Inv ∧ (demo .lenient).Idle ∧ ParamsOk (demo .lenient).params) ∧
    DistinctTable (demo .strict).fwd ∧ (demo .lenient).fwd = (demo .strict).fwd :=
  ⟨⟨demo_inv _, demo_idle _, demo_params _⟩, ⟨demo_inv _, demo_idle _, demo_params _⟩, demo_distinct _, rfl⟩

/-- `MessagesArePure`, second clause: two idle states of one table and mode that differ in the error record. -/
theorem witness_MessagesArePure : ({ demo .strict with errVal := 9 } : State).mode = (demo .strict).mode ∧
    ({ demo .strict with errVal := 9 } : State) ≠ demo .strict ∧ ({ demo .strict with errVal := 9 } : State).Inv := by
  refine ⟨rfl, fun h => ?_, ?_⟩
  · exact absurd (congrArg State.errVal h) (by decide)
  · constructor <;> simp [demo, State.reset, State.resetWith, Config.defaultParams]

/-- `StrictMessage`, `StrictInvalidMessage` and `LenientMessage`: good symbols and a bad one. -/
theorem witness_decoderMessages : (demo .strict).mode = .strict ∧ (demo .lenient).mode = .lenient ∧
    (∀ sym ∈ [0x100#21, 0x13F#21], ∃ v, tableAt (demo .strict).fwd v = sym) ∧
    (∀ v, tableAt (demo .strict).fwd v ≠ 0x41#21) := by
  refine ⟨rfl, rfl, fun sym h => ?_, demo_not_in .strict⟩
  simp only [List.mem_cons, List.not_mem_nil, or_false] at h
  rcases h with rfl | rfl
  · exact ⟨0, by decide⟩
  · exact ⟨63, by decide⟩

/-- A state with `n` symbols of a group accepted. -/
def accepted (m : Mode) (n : Fin 4) : State := { demo m with dcnt := n, dopen := true, dprev := 63 }

theorem witness_DsymEffect :
    ({ accepted .strict 1 with dfail := true } : State).dfail = true ∧
    ((accepted .strict 1).dfail = false ∧ ((accepted .strict 1).lookup 0x41).1 = false) ∧
    (accepted .strict 3).lookup 0x13F = (true, 63) ∧
    (((accepted .lenient 0).lookup 0x41).1 = false ∧ (accepted .lenient 0).mode = .lenient) ∧
    (0x70200000#32).extractLsb' 28 4 = 0x7#4 ∧ (0x70200000#32).extractLsb' 21 7 ≠ 0#7 := by decide

theorem witness_DendEffect :
    ({ accepted .strict 1 with dfail := true } : State).dfail = true ∧
    ((accepted .strict 1).dfail = false ∧ (accepted .strict 1).dcnt = 1 ∧ (accepted .strict 1).mode = .strict) ∧
    ((accepted .lenient 1).dcnt = 1 ∧ (accepted .lenient 1).mode = .lenient) ∧ (accepted .strict 2).dcnt ≠ 1 ∧
    (0x80000001#32).extractLsb' 28 4 = 0x8#4 ∧ (0x80000001#32).extractLsb' 0 28 ≠ 0#28 := by decide

theorem witness_AbortEffect : (0x90000001#32).extractLsb' 28 4 = 0x9#4 ∧ (0x90000001#32).extractLsb' 0 28 ≠ 0#28 := by
  decide

theorem witness_CsrrEffect : (0xA4000000#32).extractLsb' 28 4 = 0xA#4 ∧ 4 ≤ ((0xA4000000#32).extractLsb' 24 4).toNat ∧
    (0xA0010000#32).extractLsb' 16 8 ≠ 0#8 ∧ (0xA0000001#32).extractLsb' 0 16 ≠ 0#16 := by decide

theorem witness_CsrwEffect : (demo .strict).eopen = false ∧ (demo .strict).dopen = false ∧
    decode 0xB000FFFF#32 = .ok (.csrw 0 0xFFFF) ∧ ({ demo .strict with eopen := true } : State).eopen = true ∧
    (0xFFFF#16).toNat % 2 = 1 ∧ (0xFFFE#16).toNat % 2 = 0 ∧
    (0xB2000000#32).extractLsb' 28 4 = 0xB#4 ∧ 2 ≤ ((0xB2000000#32).extractLsb' 24 4).toNat ∧
    (0xB0010000#32).extractLsb' 16 8 ≠ 0#8 := by decide

theorem witness_ErrorProcedure : (demo .strict).err = true ∧ ({ demo .strict with err := false } : State).err = false := by
  decide

/-- The three busy commands, and an answer that holds `Busy`. -/
theorem witness_BusyRule : decode 0x10000041#32 = .ok (.tblw 0 0x41) ∧ decode 0x40000000#32 = .ok .stdtbl ∧
    decode 0xB0000001#32 = .ok (.csrw 0 1) ∧
    answers .stdtbl { State.reset with dopen := true } = some (State.reset.rspq ++ [{ kind := .err, data := 4 }]) := by
  decide

theorem witness_ErrorsByMode : (demo .lenient).mode = .lenient ∧
    answers (.dsym 0x100) (demo .lenient) = some ((demo .lenient).rspq ++ []) ∧
    answers (.ebyte 0) (holding 1) = some ((holding 1).rspq ++ []) ∧ IllegalWord 0#32 ∧
    decode 0x40000000#32 = .ok .stdtbl ∧ ({ demo .lenient with eopen := true } : State).eopen = true :=
  ⟨rfl, by decide, by decide, by simp [IllegalWord], by decide, rfl⟩

theorem witness_AtMostOneError :
    (after (runWord 0#32 State.reset)).map (·.rspq) = some (State.reset.rspq ++ [{ kind := .err, data := 3 }]) ∧
    answers (.dsym 0x41) State.reset = some (State.reset.rspq ++ [{ kind := .err, data := 1 }]) ∧
    answers .dend (accepted .strict 1) =
      some ((accepted .strict 1).rspq ++ [{ kind := .err, data := 2 }, { kind := .done, data := 2 }]) := by decide

theorem witness_FirstErrorKept : (demo .strict).err = true ∧
    (after (step ((demo .strict).placeWord 0xB1000001))).isSome = true := by decide

theorem witness_ResetMeetsInv : ParamsOk { Config.defaultParams with rspqDepth := 4 } := by
  show 4 ≤ 4
  decide

theorem witness_StepKeepsInv : (demo .strict).Inv ∧ (after (step (demo .strict))).isSome = true :=
  ⟨demo_inv _, by decide⟩

theorem witness_ResponsesStayLegal : (∀ r ∈ (demo .strict).rspq ++ (demo .strict).popped, r.Legal) ∧
    (after (step (demo .strict))).isSome = true := by
  refine ⟨fun r hr => ?_, by decide⟩
  simp only [demo, State.reset, State.resetWith, List.append_nil, List.mem_singleton] at hr
  subst hr
  show 1 ≤ (3#32).toNat ∧ (3#32).toNat ≤ 4
  decide

/-- `ParamsNeverChange`, `MessageSeesOneTableAndMode`, `TableWriters`, `ResponsesInOrder`: a step that goes on with a
message open, and one that changes the table. -/
theorem witness_steps : (after (step ((holding 1).placeWord 0x50000041))).isSome = true ∧ (holding 1).eopen = true ∧
    (after (step ((demo .strict).placeWord 0x10000041))).map (fun t => decide (t.fwd ≠ (demo .strict).fwd)) =
      some true := by decide

theorem witness_EncoderAndDecoderIndependent : (after (exec (.ebyte 1) (holding 2))).isSome = true ∧
    (after (exec (.dsym 0x41) (accepted .strict 3))).isSome = true ∧
    (after (exec (.csrr 15) (holding 2))).isSome = true := by decide

theorem witness_ReadsHaveNoSideEffect : (3#4).toNat < 4 := by decide

theorem witness_PopsCommute : (demo .strict).rspq = { kind := .err, data := 3 } :: [] ∧
    (after (exec (.tblr 5) (demo .strict))).isSome = true := by decide

theorem witness_PseudoExpansions : (demoTable.toList).length = 64 ∧ ([] : List Codepoint).length ≠ 64 := by decide

/-- `AssemblerNeverTruncates`: for each operand the last number that fits and the first that does not. -/
theorem witness_AssemblerNeverTruncates :
    (number "63".toList = some 63 ∧ number "64".toList = some 64 ∧ number "0xFF".toList = some 255 ∧
      number "256".toList = some 256 ∧ number "0xFFFF".toList = some 0xFFFF ∧ number "65536".toList = some 65536 ∧
      number "0xFFFFFFFF".toList = some 0xFFFFFFFF ∧ number "0x100000000".toList = some 0x100000000) ∧
    (symbolNumber "U+1FFFFF".toList = some 0x1FFFFF ∧ symbolNumber "U+200000".toList = some 0x200000 ∧
      symbolNumber "0x1FFFFF".toList = some 0x1FFFFF) ∧
    (csrNumber "ERRVAL".toList = some 3 ∧ csrNumber "15".toList = some 15 ∧ csrNumber "16".toList = some 16) ∧
    (["255".toList, "256".toList].map number = [255, 256].map some ∧
      ["U+0041".toList, "U+200000".toList].map symbolNumber = [0x41, 0x200000].map some ∧
      (List.replicate 64 "U+1F600".toList).map symbolNumber = (List.replicate 64 0x1F600).map some) := by decide

/-- R58, both sides of each range, words by R48 to R52. -/
theorem test_assembleCommand_ranges :
    assembleCommand "TBLW" ["63".toList, "U+1FFFFF".toList] = some [0x1FDFFFFF#32] ∧
    assembleCommand "TBLW" ["63".toList, "U+200000".toList] = none ∧
    assembleCommand "CSRW" ["15".toList, "0xFFFF".toList] = some [0xBF00FFFF#32] ∧
    assembleCommand "CSRW" ["1".toList, "65536".toList] = none ∧ assembleCommand "CSRR" ["16".toList] = none ∧
    assembleCommand ".word" ["0x100000000".toList] = none ∧
    assembleCommand "ENCMSG" ["1".toList, "256".toList] = none := by decide

theorem witness_SymbolsOfText : utf8 0x2605 = some [0xE2, 0x98, 0x85] ∧ utf8 0x10FFFF = some [0xF4, 0x8F, 0xBF, 0xBF] := by
  decide

/-- The second clause of `SymbolsOfText`: 0xFF begins no encoding. -/
theorem witness_SymbolsOfText_illFormed (s : Codepoint) (n : Nat) : utf8 s ≠ some (([0xFF#8]).take n) := by
  cases n with
  | zero =>
    simp only [utf8, List.take_zero]
    split_ifs <;> simp
  | succ n =>
    simp only [utf8, List.take_succ_cons, List.take_nil]
    split_ifs <;> simp [BitVec.toNat_eq]
    omega

theorem witness_TextRoundTrip : DistinctTable (demo .strict).fwd ∧
    ∀ v, utf8 (tableAt (demo .strict).fwd v) ≠ none := by
  refine ⟨demo_distinct _, fun v => ?_⟩
  have h := v.isLt
  have hn : (0x100#21 + v.setWidth 21).toNat = 0x100 + v.toNat := by
    simp only [BitVec.toNat_add, BitVec.toNat_setWidth, BitVec.toNat_ofNat]
    omega
  simp only [demo, demo_at, utf8, hn]
  split_ifs <;> first | omega | simp

/-- `demo` under the standard table. -/
theorem witness_StandardTextLength : ({ demo .strict with fwd := Config.defaultAlphabet } : State).Inv ∧
    ({ demo .strict with fwd := Config.defaultAlphabet } : State).Idle ∧
    ParamsOk ({ demo .strict with fwd := Config.defaultAlphabet } : State).params ∧
    ({ demo .strict with fwd := Config.defaultAlphabet } : State).fwd = Config.defaultAlphabet := by
  refine ⟨?_, ⟨rfl, rfl, rfl⟩, ?_, rfl⟩
  · constructor <;> simp [demo, State.reset, State.resetWith, Config.defaultParams]
  · show 4 ≤ 8
    decide

/-- `EncodeTruncates`: the text of one byte. -/
theorem witness_EncodeTruncates : (match encodeToString [0x41] (demo .strict) with
    | .next (_, .ok text) => text | _ => []) = [0xC4, 0x90, 0xC4, 0x90] := by decide

theorem witness_NewEncodingLoadsTable : demoTable.toList.length = 64 ∧ ([0x41#21]).length ≠ 64 ∧
    (demo .strict).Idle ∧ ParamsOk (demo .strict).params :=
  ⟨by decide, by decide, demo_idle _, demo_params _⟩

/-- `DecodeStringResults` and `DecodeCopies`: a valid text, a truncated one and an invalid one. -/
theorem witness_DecodeStringResults :
    ((symbols [0xC4, 0x90, 0xC4, 0x90] = [0x110, 0x110]) ∧ (symbols [0xC4, 0x90]).length % 4 = 1 ∧
      symbols [0x41] = [0x41]) ∧
    tableAt (demo .strict).fwd 16 = 0x110#21 ∧ ∀ v, tableAt (demo .strict).fwd v ≠ 0x41#21 :=
  ⟨by decide, by decide, demo_not_in .strict⟩

theorem witness_DecodeCopies :
    (match decodeString [0xC4, 0x90, 0xC4, 0x90] (demo .strict) with | .next (_, .ok b) => some b | _ => none) =
      some [0x41#8] ∧
    (match decodeString [0x41] (demo .strict) with | .next (_, .error e) => some e | _ => none) =
      some .invalidSymbol := by decide

end Sys2Proof.Tests
end

/-! SUPPORT. What every command can do, said once as the relation `Effect`, and its tie to `exec`. -/

namespace Sys2Proof.Machine

/-! ## What a command does to the registers, and what it answers (10_state.md R30, R40) -/

/-- The byte that one more accepted value completes in the decoder's group (R78, R80). -/
def State.completedByte (s : State) (v : Value) : List Response :=
  match s.dcnt with
  | 0 => []
  | 1 => [.ofByte (packByte0 s.dprev v)]
  | 2 => [.ofByte (packByte1 s.dprev v)]
  | 3 => [.ofByte (packByte2 s.dprev v)]

/-- The commands that a message open refuses (R102). -/
def NeedsIdle (i : Instr) : Prop :=
  (∃ idx sym, i = .tblw idx sym) ∨ i = .stdtbl ∨ ∃ imm, i = .csrw 0 imm

/-- Every way a command can end, one constructor for each: `Effect s i u rs` says that command `i`, found at `s`,
leaves the registers of `u`, whose queue is still that of `s`, and answers `rs`. It is the model's `exec` by
`exec_of_effect` and `exec_cases`. -/
inductive Effect (s : State) : Instr → State → List Response → Prop where
  | busy {i : Instr} (hi : NeedsIdle i) (hb : s.busy = true) :
      Effect s i (s.recordError .busy (encode i)) [.ofCause .busy]
  | illegal {i : Instr} (hi : i.wellFormed = false) :
      Effect s i (s.recordError .illegalCommand (encode i)) [.ofCause .illegalCommand]
  | tblw (idx : Value) (sym : Codepoint) (hb : s.busy = false) :
      Effect s (.tblw idx sym) { s with fwd := tableSet s.fwd idx sym } []
  | stdtbl (hb : s.busy = false) : Effect s .stdtbl { s with fwd := s.params.stdAlphabet } []
  | tblr (idx : Value) : Effect s (.tblr idx) s [.ofData ((tableAt s.fwd idx).setWidth 32)]
  | lookup (sym : Codepoint) : Effect s (.lookup sym) s [.ofLookup (s.lookup sym).1 (s.lookup sym).2]
  | ebyteFirst (b : Byte) (hn : s.ecnt = 0) :
      Effect s (.ebyte b) { s with eopen := true, g := putByte0 b, ecnt := 1 } []
  | ebyteSecond (b : Byte) (hn : s.ecnt = 1) :
      Effect s (.ebyte b) { s with eopen := true, g := putByte1 s.g b, ecnt := 2 } []
  | ebyteThird (b : Byte) (hn : s.ecnt = 2) :
      Effect s (.ebyte b) { s with eopen := true, g := 0, ecnt := 0 }
        ((slice (putByte2 s.g b)).map fun v => .ofSym (tableAt s.fwd v))
  | eend : Effect s .eend s.closeEncoder
      (((slice s.g).take (tailSymbols s.ecnt.val)).map fun v => .ofSym (tableAt s.fwd v))
  | dsymIgnored (sym : Codepoint) (hf : s.dfail = true) : Effect s (.dsym sym) { s with dopen := true } []
  | dsymUnknown (sym : Codepoint) (hf : s.dfail = false) (hv : s.symbolValue sym = none) :
      Effect s (.dsym sym)
        (({ s with dopen := true, dfail := true } : State).recordError .invalidSymbol (sym.setWidth 32))
        [.ofCause .invalidSymbol]
  | dsymAccepted (sym : Codepoint) (v : Value) (hf : s.dfail = false) (hv : s.symbolValue sym = some v) :
      Effect s (.dsym sym)
        { s with dopen := true, dprev := if s.dcnt = 3 then 0 else v, dcnt := s.dcnt + 1 } (s.completedByte v)
  | dendFailed (hf : s.dfail = true) : Effect s .dend s.closeDecoder [.ofStatus 1]
  | dendTruncated (hf : s.dfail = false) (hn : s.dcnt = 1) (hm : s.mode = .strict) :
      Effect s .dend (s.recordError .truncatedInput (s.dprev.setWidth 32)).closeDecoder
        [.ofCause .truncatedInput, .ofStatus 2]
  | dendLenientTail (hf : s.dfail = false) (hn : s.dcnt = 1) (hm : s.mode = .lenient) :
      Effect s .dend s.closeDecoder [.ofByte (packByte0 s.dprev 0), .ofStatus 0]
  | dendWhole (hf : s.dfail = false) (hn : s.dcnt ≠ 1) : Effect s .dend s.closeDecoder [.ofStatus 0]
  | abort : Effect s .abort s.closeEncoder.closeDecoder []
  | csrr {csr : CsrNum} {d : Word} (hd : s.csrval csr = some d) : Effect s (.csrr csr) s [.ofData d]
  | csrwMode (imm : Imm) (hb : s.busy = false) :
      Effect s (.csrw 0 imm) { s with mode := modeOfBit (imm.getLsbD 0) } []
  | csrwClear {imm : Imm} (h1 : imm.getLsbD 0 = true) : Effect s (.csrw 1 imm) s.clearError []
  | csrwKeep {imm : Imm} (h1 : imm.getLsbD 0 = false) : Effect s (.csrw 1 imm) s []

/-! ### The tie to `exec` -/

/-- The error procedure is the record, and the `ERR` response at the tail. -/
theorem report_eq_recordError (c : Cause) (info : Word) (s : State) :
    s.report c info = { s.recordError c info with rspq := s.rspq ++ [.ofCause c] } := by
  simp [State.report, State.emit]

theorem takeValue_eq (v : Value) (s : State) :
    s.takeValue v =
      { s with dprev := if s.dcnt = 3 then 0 else v, dcnt := s.dcnt + 1, rspq := s.rspq ++ s.completedByte v } := by
  unfold State.takeValue State.completedByte
  split <;> rename_i hn <;> simp [hn, State.emit]

theorem csrval_eq_none (s : State) (csr : CsrNum) : s.csrval csr = none ↔ 4 ≤ csr.toNat := by
  unfold State.csrval
  split
  case h_5 ne0 ne1 ne2 ne3 =>
    simp only [imp_false] at ne0 ne1 ne2 ne3
    exact iff_of_true rfl (by omega)
  all_goals exact iff_of_false nofun (by omega)

/-- The numbers that `CSRW` tells apart (R52). -/
theorem csrNum_cases (csr : CsrNum) : csr = 0 ∨ csr = 1 ∨ 1 < csr.toNat := by
  bv_omega

/-- A number that `CSRW` may not name raises `IllegalCommand` (R21). -/
theorem execCsrw_of_one_lt {csr : CsrNum} (imm : Imm) (s : State) (hc : 1 < csr.toNat) :
    execCsrw csr imm s = .next (s.report .illegalCommand (encode (.csrw csr imm))) := by
  unfold execCsrw
  split
  · omega
  · omega
  · rfl

/-- The tail that `EEND` emits: none, two or three symbols (R73, R76). -/
theorem execEend_eq (s : State) :
    execEend s = .next { s.closeEncoder with
      rspq := s.rspq ++ ((slice s.g).take (tailSymbols s.ecnt.val)).map fun v => .ofSym (tableAt s.fwd v) } := by
  unfold execEend
  split <;> rename_i hn <;>
    simp [hn, slice, tailSymbols, State.closeEncoder, State.emitValue, State.emit]

/-- Every command has an effect on every state (R105). -/
theorem effect_exists (i : Instr) (s : State) : ∃ u rs, Effect s i u rs := by
  cases i with
  | tblw idx sym =>
    cases hb : s.busy with
    | true => exact ⟨_, _, .busy (.inl ⟨idx, sym, rfl⟩) hb⟩
    | false => exact ⟨_, _, .tblw idx sym hb⟩
  | tblr idx => exact ⟨_, _, .tblr idx⟩
  | lookup sym => exact ⟨_, _, .lookup sym⟩
  | stdtbl =>
    cases hb : s.busy with
    | true => exact ⟨_, _, .busy (.inr (.inl rfl)) hb⟩
    | false => exact ⟨_, _, .stdtbl hb⟩
  | ebyte b =>
    match hn : s.ecnt with
    | 0 => exact ⟨_, _, .ebyteFirst b hn⟩
    | 1 => exact ⟨_, _, .ebyteSecond b hn⟩
    | 2 => exact ⟨_, _, .ebyteThird b hn⟩
  | eend => exact ⟨_, _, .eend⟩
  | dsym sym =>
    cases hf : s.dfail with
    | true => exact ⟨_, _, .dsymIgnored sym hf⟩
    | false =>
      cases hv : s.symbolValue sym with
      | none => exact ⟨_, _, .dsymUnknown sym hf hv⟩
      | some v => exact ⟨_, _, .dsymAccepted sym v hf hv⟩
  | dend =>
    obtain ⟨hf, -⟩ | ⟨hf, hn, hm, -⟩ | ⟨hf, hn, hm, -⟩ | ⟨hf, hn, -⟩ := settleTail_cases s
    · exact ⟨_, _, .dendFailed hf⟩
    · exact ⟨_, _, .dendTruncated hf hn hm⟩
    · exact ⟨_, _, .dendLenientTail hf hn hm⟩
    · exact ⟨_, _, .dendWhole hf hn⟩
  | abort => exact ⟨_, _, .abort⟩
  | csrr csr =>
    cases hd : s.csrval csr with
    | none => exact ⟨_, _, .illegal (by simp [Instr.wellFormed, (csrval_eq_none s csr).1 hd])⟩
    | some d => exact ⟨_, _, .csrr hd⟩
  | csrw csr imm =>
    obtain rfl | rfl | hc := csrNum_cases csr
    · cases hb : s.busy with
      | true => exact ⟨_, _, .busy (.inr (.inr ⟨imm, rfl⟩)) hb⟩
      | false => exact ⟨_, _, .csrwMode imm hb⟩
    · cases h1 : imm.getLsbD 0 with
      | true => exact ⟨_, _, .csrwClear h1⟩
      | false => exact ⟨_, _, .csrwKeep h1⟩
    · exact ⟨_, _, .illegal (by simp [Instr.wellFormed, hc])⟩

theorem exec_of_effect {i : Instr} {s u : State} {rs : List Response} (h : Effect s i u rs) :
    exec i s = .next { u with rspq := s.rspq ++ rs } := by
  cases h with
  | busy hi hb =>
    obtain ⟨idx, sym, rfl⟩ | rfl | ⟨imm, rfl⟩ := hi <;>
      simp [exec, execTblw, execStdtbl, execCsrw, hb, report_eq_recordError]
  | illegal hi =>
    cases i with
    | csrr csr =>
      have hd := (csrval_eq_none s csr).2 (by simpa [Instr.wellFormed] using hi)
      simp [exec, execCsrr, hd, report_eq_recordError]
    | csrw csr imm =>
      simp [exec, execCsrw_of_one_lt imm s (by simpa [Instr.wellFormed] using hi), report_eq_recordError]
    | _ => simp [Instr.wellFormed] at hi
  | tblw idx sym hb => simp [exec, execTblw, hb]
  | stdtbl hb => simp [exec, execStdtbl, hb]
  | tblr idx => rfl
  | lookup sym => rfl
  | ebyteFirst b hn => simp [exec, execEbyte, hn]
  | ebyteSecond b hn => simp [exec, execEbyte, hn]
  | ebyteThird b hn => simp [exec, execEbyte, hn, State.emitGroup, State.emitValue, State.emit, slice]
  | eend => exact execEend_eq s
  | dsymIgnored sym hf => simp [exec, execDsym, hf]
  | dsymUnknown sym hf hv => simp [exec, execDsym, hf, hv, report_eq_recordError]
  | dsymAccepted sym v hf hv => simp [exec, execDsym, hf, hv, takeValue_eq, State.completedByte]
  | dendFailed hf => simp [exec, execDend, State.settleTail, hf, State.emit, State.closeDecoder]
  | dendTruncated hf hn hm => 
    simp [exec, execDend, State.settleTail, hf, hn, hm, report_eq_recordError, State.emit, State.closeDecoder]
  | dendLenientTail hf hn hm => simp [exec, execDend, State.settleTail, hf, hn, hm, State.emit, State.closeDecoder]
  | dendWhole hf hn => simp [exec, execDend, State.settleTail, hf, hn, State.emit, State.closeDecoder]
  | abort => simp [exec, execAbort, State.closeDecoder, State.closeEncoder]
  | csrr hd => simp [exec, execCsrr, hd, State.emit]
  | csrwMode imm hb => simp [exec, execCsrw, hb]
  | csrwClear h1 => simp [exec, execCsrw, h1, State.clearError]
  | csrwKeep h1 => simp [exec, execCsrw, h1, -BitVec.getLsbD_eq_getElem]

end Sys2Proof.Machine

/-! SUPPORT. What every effect keeps and answers: legal responses (R57), the invariants (R28), the error record
(R100), the table (R18), and that no command reads the queue (R30). -/

namespace Sys2Proof.Machine

/-! ### From `exec` and `runWord` to the effect -/

/-- What a command that goes on has done. -/
theorem exec_cases {i : Instr} {s t : State} (h : exec i s = .next t) :
    ∃ u rs, Effect s i u rs ∧ t = { u with rspq := s.rspq ++ rs } := by
  obtain ⟨u, rs, he⟩ := effect_exists i s
  rw [exec_of_effect he] at h
  cases h
  exact ⟨u, rs, he, rfl⟩

/-- What an accepted word has done: its command, or `IllegalCommand` with the word as the record (R101). -/
theorem runWord_next {w : Word} {s t : State} (h : runWord w s = .next t) :
    (∃ i u rs, decode w = .ok i ∧ Effect s i u rs ∧ t = { u with rspq := s.rspq ++ rs }) ∨
    t = { s.recordError .illegalCommand w with rspq := s.rspq ++ [.ofCause .illegalCommand] } := by
  obtain ⟨i, hi, hr⟩ | ⟨e, he, hr⟩ := runWord_cases w s
  · obtain ⟨u, rs, hu, rfl⟩ := exec_cases (hr ▸ h)
    exact .inl ⟨i, u, rs, hi, hu, rfl⟩
  · rw [h] at hr
    cases hr
    exact .inr ((report_eq_withError .illegalCommand w s).symm.trans (report_eq_recordError ..))

/-! ### The answers (30_encoding.md R57) -/

theorem ofSym_legal (c : Codepoint) : (Response.ofSym c).Legal := by
  show (c.setWidth 32).toNat < 2 ^ 21
  bv_omega

theorem ofByte_legal (b : Byte) : (Response.ofByte b).Legal := by
  show (b.setWidth 32).toNat < 2 ^ 8
  bv_omega

theorem ofData_legal (d : Word) : (Response.ofData d).Legal := trivial

theorem ofCause_legal (c : Cause) : (Response.ofCause c).Legal := by
  cases c <;> simp [Response.Legal, Response.ofCause, Cause.code]

theorem ofStatus_legal {status : BitVec 4} (h : status.toNat ≤ 2) : (Response.ofStatus status).Legal := by
  show (status.setWidth 32).toNat ≤ 2
  bv_omega

theorem ofLookup_legal (s : State) (sym : Codepoint) :
    (Response.ofLookup (s.lookup sym).1 (s.lookup sym).2).Legal := by
  obtain ⟨-, hl⟩ | ⟨v, -, hl⟩ | ⟨u, v, vs, -, hl⟩ := lookup_cases s sym <;> rw [hl]
  · exact .inr rfl
  · exact .inl ⟨v, rfl⟩
  · exact .inl ⟨_, rfl⟩

theorem completedByte_length_le (s : State) (v : Value) : (s.completedByte v).length ≤ 1 := by
  unfold State.completedByte
  split <;> simp

theorem completedByte_legal (s : State) (v : Value) : ∀ r ∈ s.completedByte v, r.Legal := by
  unfold State.completedByte
  split <;> simp [ofByte_legal]

/-- Symbols answered are in range, whichever values they stand for. -/
theorem symbols_legal (fwd : Table) (vs : List Value) :
    ∀ r ∈ vs.map fun v => Response.ofSym (tableAt fwd v), r.Legal := by
  simp [ofSym_legal]

theorem Effect.length_le {i : Instr} {s u : State} {rs : List Response} (h : Effect s i u rs) : rs.length ≤ 4 := by
  cases h with
  | ebyteThird => simp [slice]
  | eend => simp [slice]
  | dsymAccepted sym v => exact (completedByte_length_le s v).trans (by decide)
  | _ => simp

theorem Effect.legal {i : Instr} {s u : State} {rs : List Response} (h : Effect s i u rs) :
    ∀ r ∈ rs, r.Legal := by
  cases h with
  | ebyteThird => exact symbols_legal _ _
  | eend => exact symbols_legal _ _
  | dsymAccepted sym v => exact completedByte_legal s v
  | lookup sym => simpa using ofLookup_legal s sym
  | _ => simp [ofData_legal, ofCause_legal, ofByte_legal, ofStatus_legal]

/-! ### The invariants (10_state.md R28) -/

/-- Recording an error keeps the invariants: the record is not clear, and the rest is as it was. -/
theorem State.Inv.recordError {s : State} (h : s.Inv) (c : Cause) (info : Word) : (s.recordError c info).Inv := by
  cases hs : s.err with
  | true => simpa [State.recordError, hs] using h
  | false =>
    simp only [State.recordError, hs]
    exact { h with err_clear := fun he => nomatch he }

theorem State.Inv.clearError {s : State} (h : s.Inv) : s.clearError.Inv :=
  { h with err_clear := fun _ => ⟨rfl, rfl⟩ }

theorem State.Inv.closeEncoder {s : State} (h : s.Inv) : s.closeEncoder.Inv :=
  { h with
    ecnt_zero := fun _ => rfl
    ecnt_one := fun _ => rfl
    ecnt_two := fun _ => rfl
    ecnt_open := fun hn => absurd rfl hn }

theorem State.Inv.closeDecoder {s : State} (h : s.Inv) : s.closeDecoder.Inv :=
  { h with
    dcnt_zero := fun _ => rfl
    dcnt_open := fun hn => absurd rfl hn
    dfail_open := fun hf => nomatch hf
    dfail_strict := fun hf => nomatch hf }

/-- The queue enters the invariants by its length alone; the port and the host do not enter. -/
theorem State.Inv.of_queue_fits {s : State} (h : s.Inv) {q : List Response} (hq : q.length ≤ s.params.rspqDepth)
    (p : List Response) (port : Option Word) (host : List HostAction) :
    ({ s with rspq := q, popped := p, port := port, host := host } : State).Inv :=
  { h with rspq_fits := hq }

theorem resetWith_inv (p : Config.Params) : (State.resetWith p).Inv := by
  constructor <;> simp [State.resetWith]

theorem putByte0_low (b : Byte) : (putByte0 b).extractLsb' 0 16 = 0 := by
  apply BitVec.eq_of_getLsbD_eq
  intro i hi
  have : i < 16 := hi
  simp [putByte0, this]

theorem putByte1_low {g : Group} (b : Byte) (hg : g.extractLsb' 0 16 = 0) :
    (putByte1 g b).extractLsb' 0 8 = 0 := by
  apply BitVec.eq_of_getLsbD_eq
  intro i hi
  have hgi : g.getLsbD i = false := by
    have := congrArg (·.getLsbD i) hg
    simpa [show i < 16 by omega] using this
  simp [putByte1, hi, hgi]

/-- Lenient mode gives every symbol a value (R77). -/
theorem strict_of_symbolValue_eq_none {s : State} {sym : Codepoint} (h : s.symbolValue sym = none) :
    s.mode = .strict := by
  obtain ⟨v, -, hv⟩ | ⟨-, -, hv⟩ | ⟨-, hm, -⟩ := symbolValue_cases s sym
  · cases hv.symm.trans h
  · cases hv.symm.trans h
  · exact hm

/-- Every command keeps the invariants of the registers. -/
theorem Effect.keeps_inv {i : Instr} {s u : State} {rs : List Response} (h : Effect s i u rs) (hs : s.Inv) :
    u.Inv := by
  cases h with
  | busy => exact hs.recordError _ _
  | illegal => exact hs.recordError _ _
  | tblw => exact { hs with }
  | stdtbl => exact { hs with }
  | tblr => exact hs
  | lookup => exact hs
  | ebyteFirst b =>
    exact { hs with
      ecnt_zero := fun hn => absurd hn (by simp)
      ecnt_one := fun _ => putByte0_low b
      ecnt_two := fun hn => absurd hn (by simp)
      ecnt_open := fun _ => rfl }
  | ebyteSecond b hn =>
    exact { hs with
      ecnt_zero := fun hn => absurd hn (by simp)
      ecnt_one := fun hn => absurd hn (by simp)
      ecnt_two := fun _ => putByte1_low b (hs.ecnt_one hn)
      ecnt_open := fun _ => rfl }
  | ebyteThird => exact { hs.closeEncoder with ecnt_open := fun _ => rfl }
  | eend => exact hs.closeEncoder
  | dsymIgnored => exact { hs with dcnt_open := fun _ => rfl, dfail_open := fun _ => rfl }
  | dsymUnknown sym hf hv =>
    have strict := strict_of_symbolValue_eq_none hv
    have failed : ({ s with dopen := true, dfail := true } : State).Inv := { hs with
      dcnt_open := fun _ => rfl
      dfail_open := fun _ => rfl
      dfail_strict := fun _ => strict }
    exact failed.recordError _ _
  | dsymAccepted sym v hf =>
    have wraps : ∀ n : Fin 4, n + 1 = 0 → n = 3 := by decide
    exact { hs with
      dcnt_zero := fun hn => if_pos (wraps s.dcnt hn)
      dcnt_open := fun _ => rfl
      dfail_open := fun _ => rfl }
  | dendFailed => exact hs.closeDecoder
  | dendTruncated => exact (hs.recordError _ _).closeDecoder
  | dendLenientTail => exact hs.closeDecoder
  | dendWhole => exact hs.closeDecoder
  | abort => exact hs.closeEncoder.closeDecoder
  | csrr => exact hs
  | csrwMode imm hb =>
    have closed : s.dopen ≠ true := by simp [((busy_eq_false s).1 hb).2]
    exact { hs with dfail_strict := fun hf => absurd (hs.dfail_open hf) closed }
  | csrwClear => exact hs.clearError
  | csrwKeep => exact hs

/-- An accepted word keeps the invariants: its four free slots take what it answers (R116). -/
theorem runWord_keeps_inv {w : Word} {s t : State} (hs : s.Inv) (room : s.rspq.length + 4 ≤ s.params.rspqDepth)
    (h : runWord w s = .next t) : t.Inv := by
  obtain ⟨i, u, rs, -, he, rfl⟩ | rfl := runWord_next h
  · have hp : u.params = s.params := (exec_outside (exec_of_effect he)).1
    have hl := he.length_le
    exact (he.keeps_inv hs).of_queue_fits (by rw [hp, List.length_append]; omega) _ _ _
  · exact (hs.recordError _ _).of_queue_fits (by
      rw [State.recordError_params, List.length_append, List.length_singleton]
      omega) _ _ _

/-! ### The error record, the table and the queue -/

/-- Only `CSRW STATUS` with bit 0 set clears a record (R100, R106). -/
theorem Effect.keeps_record {i : Instr} {s u : State} {rs : List Response} (h : Effect s i u rs)
    (he : s.err = true) :
    (u.err = true ∧ u.errCause = s.errCause ∧ u.errVal = s.errVal) ∨
    (∃ imm, i = .csrw 1 imm ∧ imm.getLsbD 0 = true ∧ u = s.clearError ∧ rs = []) := by
  cases h with
  | csrwClear h1 => exact .inr ⟨_, rfl, h1, rfl, rfl⟩
  | _ => exact .inl (by simp [he])

/-- Only `TBLW` and `STDTBL` write the table, and only with no message open (R18, R102). -/
theorem Effect.keeps_table {i : Instr} {s u : State} {rs : List Response} (h : Effect s i u rs) :
    u.fwd = s.fwd ∨
    (∃ idx sym, i = .tblw idx sym ∧ s.busy = false ∧ u.fwd = tableSet s.fwd idx sym) ∨
    (i = .stdtbl ∧ s.busy = false ∧ u.fwd = s.params.stdAlphabet) := by
  cases h with
  | tblw idx sym hb => exact .inr (.inl ⟨idx, sym, rfl, hb, rfl⟩)
  | stdtbl hb => exact .inr (.inr ⟨rfl, hb, rfl⟩)
  | _ => exact .inl (by simp)

theorem recordError_at_queue (c : Cause) (info : Word) (s : State) (q p : List Response) :
    ({ s with rspq := q, popped := p } : State).recordError c info =
      { s.recordError c info with rspq := q, popped := p } := by
  unfold State.recordError
  split <;> rfl

/-- No command reads the queue or what the host has popped (R30). -/
theorem Effect.at_queue {i : Instr} {s u : State} {rs : List Response} (h : Effect s i u rs)
    (q p : List Response) :
    Effect { s with rspq := q, popped := p } i { u with rspq := q, popped := p } rs := by
  cases h with
  | busy hi hb => rw [← recordError_at_queue]; exact .busy hi hb
  | illegal hi => rw [← recordError_at_queue]; exact .illegal hi
  | tblw idx sym hb => exact .tblw idx sym hb
  | stdtbl hb => exact .stdtbl hb
  | tblr idx => exact .tblr idx
  | lookup sym => exact .lookup sym
  | ebyteFirst b hn => exact .ebyteFirst b hn
  | ebyteSecond b hn => exact .ebyteSecond b hn
  | ebyteThird b hn => exact .ebyteThird b hn
  | eend => exact .eend
  | dsymIgnored sym hf => exact .dsymIgnored sym hf
  | dsymUnknown sym hf hv => rw [← recordError_at_queue]; exact .dsymUnknown sym hf hv
  | dsymAccepted sym v hf hv => exact .dsymAccepted sym v hf hv
  | dendFailed hf => exact .dendFailed hf
  | dendTruncated hf hn hm =>
    have := Effect.dendTruncated (s := { s with rspq := q, popped := p }) hf hn hm
    rwa [recordError_at_queue] at this
  | dendLenientTail hf hn hm => exact .dendLenientTail hf hn hm
  | dendWhole hf hn => exact .dendWhole hf hn
  | abort => exact .abort
  | csrr hd => exact .csrr hd
  | csrwMode imm hb => exact .csrwMode imm hb
  | csrwClear h1 => exact .csrwClear h1
  | csrwKeep h1 => exact .csrwKeep h1

end Sys2Proof.Machine

/-! The statements of 10_state.md, each by `step_cases` and the facts about `Effect`. -/

namespace Sys2Proof.Machine

/-- Settles O42: the block's move by `runWord_keeps_inv`, the host's moves by the queue's length. -/
theorem stepKeepsInv : Obligations.StepKeepsInv := by
  intro s t hs h
  have fits := hs.rspq_fits
  obtain ⟨w, -, room, hr⟩ | ⟨-, -, rfl⟩ | ⟨w, rest, -, -, rfl⟩ | ⟨r, q, rest, -, -, hq, rfl⟩ | ⟨rest, -, -, rfl⟩ :=
    step_cases h
  · exact runWord_keeps_inv (hs.of_queue_fits fits s.popped none s.host) room hr
  · exact hs
  · exact hs.of_queue_fits fits _ _ _
  · exact hs.of_queue_fits (by rw [hq, List.length_cons] at fits; omega) _ _ _
  · exact (resetWith_inv s.params).of_queue_fits (Nat.zero_le _) _ _ _

/-- Settles O12, by the effect every command has. -/
theorem everyCommandAnswers : Obligations.EveryCommandAnswers := by
  intro i s
  obtain ⟨u, rs, he⟩ := effect_exists i s
  exact ⟨_, rs, exec_of_effect he, rfl, he.length_le, he.legal⟩

/-- Settles O40: a word keeps the record or is the clear, the host keeps it or resets. -/
theorem firstErrorKept : Obligations.FirstErrorKept := by
  intro s t h hs
  obtain ⟨w, hw, -, hr⟩ | ⟨-, -, rfl⟩ | ⟨w, rest, -, -, rfl⟩ | ⟨r, q, rest, -, -, -, rfl⟩ |
    ⟨rest, -, hh, rfl⟩ := step_cases h
  · obtain ⟨i, u, rs, hi, he, rfl⟩ | rfl := runWord_next hr
    · obtain hk | ⟨imm, rfl, h1, rfl, rfl⟩ := he.keeps_record hs
      · exact .inl hk
      · refine .inr (.inl ⟨w, imm, hw, hi, ?_, ?_⟩)
        · simpa [BitVec.getLsbD, Nat.testBit_zero] using h1
        · simp [State.clearError, State.takeWord]
    · exact .inl (by simp [hs])
  · exact .inl ⟨hs, rfl, rfl⟩
  · exact .inl ⟨hs, rfl, rfl⟩
  · exact .inl ⟨hs, rfl, rfl⟩
  · exact .inr (.inr ⟨rest, hh, rfl⟩)

/-- Settles O44: a command leaves the parameters (`exec_outside`), and so does each move of the host. -/
theorem paramsNeverChange : Obligations.ParamsNeverChange := by
  intro s t h
  obtain ⟨w, -, -, hr⟩ | ⟨-, -, rfl⟩ | ⟨w, rest, -, -, rfl⟩ | ⟨r, q, rest, -, -, -, rfl⟩ | ⟨rest, -, -, rfl⟩ :=
    step_cases h
  · obtain ⟨i, u, rs, -, he, rfl⟩ | rfl := runWord_next hr
    · exact (exec_outside (exec_of_effect he)).1
    · simp
  all_goals rfl

/-- Settles O46: of the moves only a word or a reset can change the table, of the words only the two writers. -/
theorem tableWriters : Obligations.TableWriters := by
  intro s t h hne
  obtain ⟨w, hw, -, hr⟩ | ⟨-, -, rfl⟩ | ⟨w, rest, -, -, rfl⟩ | ⟨r, q, rest, -, -, -, rfl⟩ |
    ⟨rest, -, hh, rfl⟩ := step_cases h
  · obtain ⟨i, u, rs, hi, he, rfl⟩ | rfl := runWord_next hr
    · obtain hk | ⟨idx, sym, rfl, hb, hf⟩ | ⟨rfl, hb, hf⟩ := he.keeps_table
      · exact absurd hk hne
      · obtain ⟨ho, hd⟩ := (busy_eq_false _).1 hb
        exact .inl ⟨w, idx, sym, hw, hi, ho, hd, hf⟩
      · obtain ⟨ho, hd⟩ := (busy_eq_false _).1 hb
        exact .inr (.inl ⟨w, hw, hi, ho, hd, hf⟩)
    · simp at hne
  · exact absurd rfl hne
  · exact absurd rfl hne
  · exact absurd rfl hne
  · exact .inr (.inr ⟨rest, hh, rfl⟩)

/-- Settles O49: a word appends its answers, a pop moves the head over, an issue adds nothing. -/
theorem responsesInOrder : Obligations.ResponsesInOrder := by
  intro s t h
  obtain ⟨w, -, -, hr⟩ | ⟨-, -, rfl⟩ | ⟨w, rest, -, -, rfl⟩ | ⟨r, q, rest, -, -, hq, rfl⟩ | ⟨rest, -, hh, rfl⟩ :=
    step_cases h
  · obtain ⟨i, u, rs, -, he, rfl⟩ | rfl := runWord_next hr
    · obtain ⟨-, -, -, hp⟩ := exec_outside (exec_of_effect he)
      exact .inl ⟨rs, he.length_le, by simp [show u.popped = s.popped from hp]⟩
    · exact .inl ⟨[.ofCause .illegalCommand], by simp, by simp⟩
  · exact .inl ⟨[], by simp, by simp⟩
  · exact .inl ⟨[], by simp, by simp⟩
  · exact .inl ⟨[], by simp, by simp [hq]⟩
  · exact .inr ⟨rest, hh, rfl, rfl⟩

/-- Settles O50: the effect is the same at the popped queue (`Effect.at_queue`), its answers at the tail. -/
theorem popsCommute : Obligations.PopsCommute := by
  intro i s t r q hq h
  obtain ⟨-, -, -, hp⟩ := exec_outside h
  obtain ⟨u, rs, he, rfl⟩ := exec_cases h
  have hu : u.popped = s.popped := hp
  rw [exec_of_effect (he.at_queue q (s.popped ++ [r]))]
  simp [hq, hu]

/-- Settles O41, by the register values reset leaves. -/
theorem resetMeetsInv : Obligations.ResetMeetsInv :=
  ⟨resetWith_inv _, fun p _ => resetWith_inv p⟩

end Sys2Proof.Machine

/-! SUPPORT. Further rules: the answer of a reverse lookup in a table without duplicates (R63, R65), the round trip of a
word (R54), which commands write which registers (R39), and one command of a host function (R89). -/

namespace Sys2Proof.Machine

/-! ### Reverse lookups with at most one match (40_table.md R63, R65) -/

/-- Where at most one entry holds the symbol, a reverse lookup draws nothing. -/
theorem lookup_cases_of_at_most_one {s : State} {sym : Codepoint}
    (once : ∀ u v, tableAt s.fwd u = sym → tableAt s.fwd v = sym → u = v) :
    (matching s.fwd sym = [] ∧ s.lookup sym = (false, 0)) ∨
    (∃ v, matching s.fwd sym = [v] ∧ s.lookup sym = (true, v)) := by
  obtain miss | hit | ⟨u, v, vs, hm, -⟩ := lookup_cases s sym
  · exact .inl miss
  · exact .inr hit
  · have hu : tableAt s.fwd u = sym := by simp [← mem_matching, hm]
    have hv : tableAt s.fwd v = sym := by simp [← mem_matching, hm]
    have distinct := nodup_matching s.fwd sym
    simp [hm, once u v hu hv] at distinct

theorem lookup_of_only_match {s : State} {sym : Codepoint} {v : Value} (hv : tableAt s.fwd v = sym)
    (only : ∀ u, tableAt s.fwd u = sym → u = v) : s.lookup sym = (true, v) := by
  have mem : v ∈ matching s.fwd sym := (mem_matching ..).2 hv
  have once : ∀ u w, tableAt s.fwd u = sym → tableAt s.fwd w = sym → u = w := fun u w hu hw =>
    (only u hu).trans (only w hw).symm
  obtain ⟨hm, -⟩ | ⟨w, hm, hl⟩ := lookup_cases_of_at_most_one once
  · simp [hm] at mem
  · rw [hm, List.mem_singleton] at mem
    rw [hl, mem]

/-- Without duplicates a reverse lookup is a function of the table and the symbol. -/
theorem lookup_of_distinct {s : State} (distinct : DistinctTable s.fwd) (sym : Codepoint) :
    s.lookup sym = (!(matching s.fwd sym).isEmpty, valueOrZero s.fwd sym) := by
  have once : ∀ u v, tableAt s.fwd u = sym → tableAt s.fwd v = sym → u = v := fun u v hu hv =>
    distinct u v (hu.trans hv.symm)
  obtain ⟨hm, hl⟩ | ⟨v, hm, hl⟩ := lookup_cases_of_at_most_one once <;>
    simp [hl, hm, valueOrZero]

/-! ### The word of a command (30_encoding.md R48 to R56) -/

theorem decode_encode {i : Instr} (h : i.wellFormed = true) : decode (encode i) = .ok i := by
  cases i with
  | tblw idx sym =>
    obtain ⟨hop, hidx, hres, hsym⟩ := encode_tblw_fields idx sym
    simp [decode, decodeTblw, hop, hidx, hres, hsym]
  | tblr idx =>
    obtain ⟨hop, hidx, hres, hsym⟩ := encode_tblr_fields idx
    simp [decode, decodeTblr, hop, hidx, hres, hsym]
  | lookup sym =>
    obtain ⟨hop, hres, hsym⟩ := encode_lookup_fields sym
    simp [decode, decodeS, hop, hres, hsym]
  | dsym sym =>
    obtain ⟨hop, hres, hsym⟩ := encode_dsym_fields sym
    simp [decode, decodeS, hop, hres, hsym]
  | ebyte b =>
    obtain ⟨hop, hres, hb⟩ := encode_ebyte_fields b
    simp [decode, decodeB, hop, hres, hb]
  | csrr csr =>
    obtain ⟨hop, hcsr, hres, himm⟩ := encode_csrr_fields csr
    have legal : csr.toNat < 4 := by simpa [Instr.wellFormed] using h
    simp [decode, decodeCsrr, hop, hcsr, hres, himm, legal]
  | csrw csr imm =>
    obtain ⟨hop, hcsr, hres, himm⟩ := encode_csrw_fields csr imm
    have legal : csr.toNat < 2 := by simpa [Instr.wellFormed] using h
    simp [decode, decodeCsrw, hop, hcsr, hres, himm, legal]
  | stdtbl | eend | dend | abort => decide

/-- With room the word at the port is accepted (R116). -/
theorem step_of_room {s : State} {w : Word} (hp : s.port = some w)
    (room : s.rspq.length + 4 ≤ s.params.rspqDepth) : step s = runWord w s.takeWord := by
  simp [step, portStep, hp, (hasRoom_iff s).2 room]

theorem runWord_of_decode {w : Word} {i : Instr} (h : decode w = .ok i) (s : State) : runWord w s = exec i s := by
  simp [runWord, h]

/-! ### Which commands write which registers (20_memory.md R37, R39) -/

/-- The commands that can write the encoder's registers (R75, R76, R85). -/
def writesEncoder : Instr → Bool
  | .ebyte _ | .eend | .abort => true
  | _ => false

/-- The commands that can write the decoder's registers (R80, R81, R85). -/
def writesDecoder : Instr → Bool
  | .dsym _ | .dend | .abort => true
  | _ => false

theorem Effect.keeps_encoder {i : Instr} {s u : State} {rs : List Response} (h : Effect s i u rs)
    (hi : writesEncoder i = false) : u.g = s.g ∧ u.ecnt = s.ecnt ∧ u.eopen = s.eopen := by
  cases h with
  | ebyteFirst | ebyteSecond | ebyteThird | eend | abort => cases hi
  | _ => simp

theorem Effect.keeps_decoder {i : Instr} {s u : State} {rs : List Response} (h : Effect s i u rs)
    (hi : writesDecoder i = false) :
    u.dprev = s.dprev ∧ u.dcnt = s.dcnt ∧ u.dopen = s.dopen ∧ u.dfail = s.dfail := by
  cases h with
  | dsymIgnored | dsymUnknown | dsymAccepted | dendFailed | dendTruncated | dendLenientTail | dendWhole | abort =>
    cases hi
  | _ => simp

/-- With a message open the three writers of the table and the mode are refused (R102). -/
theorem Effect.keeps_table_and_mode {i : Instr} {s u : State} {rs : List Response} (h : Effect s i u rs)
    (busy : s.busy = true) : u.fwd = s.fwd ∧ u.mode = s.mode := by
  cases h with
  | tblw _ _ idle | stdtbl idle | csrwMode _ idle => exact absurd (busy.symm.trans idle) (by decide)
  | _ => simp

/-- A read leaves the registers and answers one response, no `ERR` (R37). -/
theorem effect_of_read {i : Instr}
    (hi : (∃ idx, i = .tblr idx) ∨ (∃ sym, i = .lookup sym) ∨ ∃ csr : CsrNum, csr.toNat < 4 ∧ i = .csrr csr)
    (s : State) : ∃ r : Response, r.kind ≠ .err ∧ Effect s i s [r] := by
  obtain ⟨idx, rfl⟩ | ⟨sym, rfl⟩ | ⟨csr, hc, rfl⟩ := hi
  · exact ⟨_, by nofun, .tblr idx⟩
  · exact ⟨_, by nofun, .lookup sym⟩
  · obtain ⟨d, hd⟩ := Option.ne_none_iff_exists'.1 (mt (csrval_eq_none s csr).1 (by omega))
    exact ⟨_, by nofun, .csrr hd⟩

end Sys2Proof.Machine

/-! The statements of 20_memory.md on single steps. -/

namespace Sys2Proof.Machine

/-- Settles O8, by `step_of_room`. -/
theorem stepRunsDecoded : Obligations.StepRunsDecoded := by
  intro s w i hp room hw
  exact (step_of_room hp room).trans (runWord_of_decode hw s.takeWord)

/-- Settles O15: after the write `idx` is the only match of the symbol. -/
theorem writeThenLookup : Obligations.WriteThenLookup := by
  intro idx sym s ho hd others
  have written := exec_of_effect (.tblw idx sym ((busy_eq_false s).2 ⟨ho, hd⟩))
  have at_idx : tableAt (tableSet s.fwd idx sym) idx = sym := by simp [tableAt_tableSet]
  have elsewhere : ∀ v, v ≠ idx → tableAt (tableSet s.fwd idx sym) v = tableAt s.fwd v := fun v hv => by
    simp [tableAt_tableSet, hv.symm]
  refine ⟨_, written, at_idx, elsewhere, lookup_of_only_match at_idx fun u hu => ?_⟩
  by_contra hne
  exact others u hne ((elsewhere u hne).symm.trans hu)

/-- Settles O45: a word finds the message open, and the host's other moves touch neither register. -/
theorem messageSeesOneTableAndMode : Obligations.MessageSeesOneTableAndMode := by
  intro s t h hopen
  obtain ⟨w, -, -, hr⟩ | ⟨-, -, rfl⟩ | ⟨w, rest, -, -, rfl⟩ | ⟨r, q, rest, -, -, -, rfl⟩ |
    ⟨rest, -, hh, rfl⟩ := step_cases h
  · obtain ⟨i, u, rs, -, he, rfl⟩ | rfl := runWord_next hr
    · exact .inl (he.keeps_table_and_mode ((busy_eq_true s.takeWord).2 hopen))
    · exact .inl (by simp)
  · exact .inl ⟨rfl, rfl⟩
  · exact .inl ⟨rfl, rfl⟩
  · exact .inl ⟨rfl, rfl⟩
  · exact .inr ⟨rest, hh, rfl⟩

/-- Settles O47: none of the named commands is among the other side's writers. -/
theorem encoderAndDecoderIndependent : Obligations.EncoderAndDecoderIndependent := by
  refine ⟨fun i s t hi h => ?_, fun i s t hi h => ?_, fun i s t hi h => ?_⟩ <;>
    obtain ⟨u, rs, he, rfl⟩ := exec_cases h
  · exact he.keeps_decoder (by obtain ⟨b, rfl⟩ | rfl := hi <;> rfl)
  · exact he.keeps_encoder (by obtain ⟨sym, rfl⟩ | rfl := hi <;> rfl)
  · obtain ⟨henc, hdec⟩ : writesEncoder i = false ∧ writesDecoder i = false := by
      obtain ⟨_, rfl⟩ | ⟨_, rfl⟩ | ⟨_, rfl⟩ | ⟨_, rfl⟩ := hi <;> exact ⟨rfl, rfl⟩
    obtain ⟨hg, hn, ho⟩ := he.keeps_encoder henc
    exact ⟨hg, hn, ho, he.keeps_decoder hdec⟩

/-- Settles O48: the read has one effect, the same at the longer queue (`Effect.at_queue`). -/
theorem readsHaveNoSideEffect : Obligations.ReadsHaveNoSideEffect := by
  intro i s hi
  obtain ⟨r, hr, he⟩ := effect_of_read hi s
  have again := exec_of_effect (he.at_queue (s.rspq ++ [r]) s.popped)
  exact ⟨r, hr, exec_of_effect he, by simpa using again⟩

end Sys2Proof.Machine

/-! SUPPORT. One command of a host function (44_host_functions.md R89), and what a message's responses depend on
(20_memory.md R45). -/

namespace Sys2Proof.Machine

/-! ### Running a host function's commands -/

/-- What a host function keeps between its commands: room for four responses once the queue is read, and an empty
port. -/
structure State.Ready (s : State) : Prop where
  params : ParamsOk s.params
  port : s.port = none

/-- A host function's command has its effect, and the host reads what it answers (R89, log 12). -/
theorem hostCommand_of_effect {i : Instr} {s u : State} {rs : List Response} (ready : s.Ready)
    (legal : i.wellFormed = true) (h : Effect s i u rs) :
    hostCommand (encode i) s = .next ({ u with rspq := [], popped := s.popped ++ s.rspq ++ rs }, rs) := by
  have placed : step (s.drained.placeWord (encode i)) = exec i { s.drained with port := none } :=
    stepRunsDecoded _ _ i rfl (by simpa [ParamsOk] using ready.params) (decode_encode legal)
  have drained : ({ s.drained with port := none } : State) = s.drained := by
    rw [← ready.port]; rfl
  rw [hostCommand, placed, drained, State.drained, exec_of_effect (h.at_queue [] (s.popped ++ s.rspq))]
  simp [State.drained]

theorem Effect.keeps_ready {i : Instr} {s u : State} {rs : List Response} (h : Effect s i u rs) (ready : s.Ready)
    (q p : List Response) : ({ u with rspq := q, popped := p } : State).Ready := by
  obtain ⟨hparams, hport, -, -⟩ := exec_outside (exec_of_effect h)
  exact ⟨hparams ▸ ready.params, hport.trans ready.port⟩

theorem hostRun_cons_next {i : Instr} {is : List Instr} {s t u : State} {rs qs : List Response}
    (first : hostCommand (encode i) s = .next (t, rs)) (others : hostRun is t = .next (u, qs)) :
    hostRun (i :: is) s = .next (u, rs ++ qs) := by
  simp [hostRun, first, others]

/-! ### Two states that answer alike -/

/-- From related states the command answers the same and leaves related states. -/
def AnswersAlike (R : State → State → Prop) (i : Instr) : Prop :=
  ∀ s d, R s d → ∃ u v rs, Effect s i u rs ∧ Effect d i v rs ∧ R u v

/-- A relation that the queue and what the host has popped do not enter. -/
def IgnoresQueue (R : State → State → Prop) : Prop :=
  ∀ s d, R s d → ∀ p p' : List Response, R { s with rspq := [], popped := p } { d with rspq := [], popped := p' }

/-- Commands that answer alike make a run that answers alike. -/
theorem hostRun_alike {R : State → State → Prop} (hR : IgnoresQueue R) (is : List Instr)
    (legal : ∀ i ∈ is, i.wellFormed = true) (alike : ∀ i ∈ is, AnswersAlike R i) (s d : State)
    (hs : s.Ready) (hd : d.Ready) (h : R s d) :
    ∃ t u rs, hostRun is s = .next (t, rs) ∧ hostRun is d = .next (u, rs) := by
  induction is generalizing s d with
  | nil => exact ⟨s, d, [], rfl, rfl⟩
  | cons i is ih =>
    rw [List.forall_mem_cons] at legal alike
    obtain ⟨u, v, rs, hu, hv, huv⟩ := alike.1 s d h
    obtain ⟨t, t', qs, ht, ht'⟩ := ih legal.2 alike.2 _ _ (hu.keeps_ready hs _ _) (hv.keeps_ready hd _ _)
      (hR u v huv (s.popped ++ s.rspq ++ rs) (d.popped ++ d.rspq ++ rs))
    exact ⟨t, t', rs ++ qs, hostRun_cons_next (hostCommand_of_effect hs legal.1 hu) ht,
      hostRun_cons_next (hostCommand_of_effect hd legal.1 hv) ht'⟩

/-! ### The encoder -/

/-- The two states agree on all that the encoder's commands read (R75, R76). -/
structure SameEncoder (s d : State) : Prop where
  fwd : d.fwd = s.fwd
  g : d.g = s.g
  ecnt : d.ecnt = s.ecnt

theorem sameEncoder_ignoresQueue : IgnoresQueue SameEncoder := fun _ _ h _ _ => ⟨h.fwd, h.g, h.ecnt⟩

theorem ebyte_alike (b : Byte) : AnswersAlike SameEncoder (.ebyte b) := by
  intro s d h
  match hn : s.ecnt with
  | 0 => exact ⟨_, _, _, .ebyteFirst b hn, .ebyteFirst b (h.ecnt.trans hn), h.fwd, rfl, rfl⟩
  | 1 =>
    exact ⟨_, _, _, .ebyteSecond b hn, .ebyteSecond b (h.ecnt.trans hn), h.fwd, congrArg (putByte1 · b) h.g, rfl⟩
  | 2 =>
    have third := Effect.ebyteThird b (h.ecnt.trans hn)
    rw [h.fwd, h.g] at third
    exact ⟨_, _, _, .ebyteThird b hn, third, rfl, rfl, rfl⟩

theorem eend_alike : AnswersAlike SameEncoder .eend := by
  intro s d h
  have tail := Effect.eend (s := d)
  rw [h.fwd, h.g, h.ecnt] at tail
  exact ⟨_, _, _, .eend, tail, h.fwd, rfl, rfl⟩

/-! ### The decoder -/

/-- The two states agree on all that the decoder's commands read, under a table without duplicates (R77, R80, R81):
with duplicates a draw may read more (log 3). -/
structure SameDecoder (s d : State) : Prop where
  distinct : DistinctTable s.fwd
  fwd : d.fwd = s.fwd
  mode : d.mode = s.mode
  dprev : d.dprev = s.dprev
  dcnt : d.dcnt = s.dcnt
  dfail : d.dfail = s.dfail

theorem sameDecoder_ignoresQueue : IgnoresQueue SameDecoder := fun _ _ h _ _ => { h with }

theorem SameDecoder.symbolValue {s d : State} (h : SameDecoder s d) (sym : Codepoint) :
    d.symbolValue sym = s.symbolValue sym := by
  have hl : d.lookup sym = s.lookup sym := by
    rw [lookup_of_distinct h.distinct, lookup_of_distinct (h.fwd ▸ h.distinct), h.fwd]
  simp only [State.symbolValue, hl, h.mode]

theorem SameDecoder.completedByte {s d : State} (h : SameDecoder s d) (v : Value) :
    d.completedByte v = s.completedByte v := by
  simp only [State.completedByte, h.dcnt, h.dprev]

theorem SameDecoder.closeDecoder {s d : State} (h : SameDecoder s d) :
    SameDecoder s.closeDecoder d.closeDecoder :=
  { h with dprev := rfl, dcnt := rfl, dfail := rfl }

theorem SameDecoder.recordError {s d : State} (h : SameDecoder s d) (c : Cause) (info info' : Word) :
    SameDecoder (s.recordError c info) (d.recordError c info') := by
  constructor <;> simp [h.distinct, h.fwd, h.mode, h.dprev, h.dcnt, h.dfail]

theorem dsym_alike (sym : Codepoint) : AnswersAlike SameDecoder (.dsym sym) := by
  intro s d h
  cases hf : s.dfail with
  | true => exact ⟨_, _, _, .dsymIgnored sym hf, .dsymIgnored sym (h.dfail.trans hf), { h with }⟩
  | false =>
    have hdf := h.dfail.trans hf
    cases hv : s.symbolValue sym with
    | none =>
      have failed : SameDecoder { s with dopen := true, dfail := true } { d with dopen := true, dfail := true } :=
        { h with dfail := rfl }
      exact ⟨_, _, _, .dsymUnknown sym hf hv, .dsymUnknown sym hdf ((h.symbolValue sym).trans hv),
        failed.recordError _ _ _⟩
    | some v =>
      have accepted := Effect.dsymAccepted sym v hdf ((h.symbolValue sym).trans hv)
      rw [h.completedByte v] at accepted
      exact ⟨_, _, _, .dsymAccepted sym v hf hv, accepted,
        { h with dprev := by simp only [h.dcnt], dcnt := congrArg (· + 1) h.dcnt }⟩

theorem dend_alike : AnswersAlike SameDecoder .dend := by
  intro s d h
  obtain ⟨hf, -⟩ | ⟨hf, hn, hm, -⟩ | ⟨hf, hn, hm, -⟩ | ⟨hf, hn, -⟩ := settleTail_cases s
  · exact ⟨_, _, _, .dendFailed hf, .dendFailed (h.dfail.trans hf), h.closeDecoder⟩
  · exact ⟨_, _, _, .dendTruncated hf hn hm,
      .dendTruncated (h.dfail.trans hf) (h.dcnt.trans hn) (h.mode.trans hm), (h.recordError _ _ _).closeDecoder⟩
  · have tail := Effect.dendLenientTail (h.dfail.trans hf) (h.dcnt.trans hn) (h.mode.trans hm)
    rw [h.dprev] at tail
    exact ⟨_, _, _, .dendLenientTail hf hn hm, tail, h.closeDecoder⟩
  · exact ⟨_, _, _, .dendWhole hf hn, .dendWhole (h.dfail.trans hf) (h.dcnt ▸ hn), h.closeDecoder⟩

/-! ### Messages -/

theorem State.Idle.ready {s : State} (idle : s.Idle) (params : ParamsOk s.params) : s.Ready := ⟨params, idle.port⟩

/-- With no encoder message open the encoder is as reset left it (R28). -/
theorem State.Inv.encoder_clear {s : State} (inv : s.Inv) (closed : s.eopen = false) : s.g = 0 ∧ s.ecnt = 0 := by
  have hn : s.ecnt = 0 := by
    by_contra hne
    exact absurd (inv.ecnt_open hne) (by simp [closed])
  exact ⟨inv.ecnt_zero hn, hn⟩

/-- With no decoder message open the decoder is as reset left it (R28). -/
theorem State.Inv.decoder_clear {s : State} (inv : s.Inv) (closed : s.dopen = false) :
    s.dprev = 0 ∧ s.dcnt = 0 ∧ s.dfail = false := by
  have hn : s.dcnt = 0 := by
    by_contra hne
    exact absurd (inv.dcnt_open hne) (by simp [closed])
  have hf : s.dfail = false := by
    by_contra hne
    exact absurd (inv.dfail_open (by simpa using hne)) (by simp [closed])
  exact ⟨inv.dcnt_zero hn, hn, hf⟩

theorem forall_mem_encMsg {P : Instr → Prop} (bytes : ∀ b, P (.ebyte b)) (last : P .eend) (bs : List Byte) :
    ∀ i ∈ encMsg bs, P i := by
  simp only [encMsg, List.forall_mem_append, List.forall_mem_map, List.forall_mem_singleton]
  exact ⟨fun b _ => bytes b, last⟩

theorem forall_mem_decMsg {P : Instr → Prop} (symbols : ∀ sym, P (.dsym sym)) (last : P .dend)
    (syms : List Codepoint) : ∀ i ∈ decMsg syms, P i := by
  simp only [decMsg, List.forall_mem_append, List.forall_mem_map, List.forall_mem_singleton]
  exact ⟨fun sym _ => symbols sym, last⟩

theorem encMsg_wellFormed (bs : List Byte) : ∀ i ∈ encMsg bs, i.wellFormed = true :=
  forall_mem_encMsg (P := (·.wellFormed = true)) (fun _ => rfl) rfl bs

theorem decMsg_wellFormed (syms : List Codepoint) : ∀ i ∈ decMsg syms, i.wellFormed = true :=
  forall_mem_decMsg (P := (·.wellFormed = true)) (fun _ => rfl) rfl syms

/-- Settles O32: with no message open the states agree on what the message reads, and each command keeps that. -/
theorem messagesArePure : Obligations.MessagesArePure := by
  constructor
  · intro bs s d inv idle params inv' idle' params' hfwd
    obtain ⟨hg, hn⟩ := inv.encoder_clear idle.eopen
    obtain ⟨hg', hn'⟩ := inv'.encoder_clear idle'.eopen
    exact hostRun_alike sameEncoder_ignoresQueue (encMsg bs) (encMsg_wellFormed bs)
      (forall_mem_encMsg ebyte_alike eend_alike bs) s d (idle.ready params) (idle'.ready params')
      ⟨hfwd, hg'.trans hg.symm, hn'.trans hn.symm⟩
  · intro syms s d inv idle params inv' idle' params' hfwd distinct hmode
    obtain ⟨hp, hn, hf⟩ := inv.decoder_clear idle.dopen
    obtain ⟨hp', hn', hf'⟩ := inv'.decoder_clear idle'.dopen
    exact hostRun_alike sameDecoder_ignoresQueue (decMsg syms) (decMsg_wellFormed syms)
      (forall_mem_decMsg dsym_alike dend_alike syms) s d (idle.ready params) (idle'.ready params')
      ⟨distinct, hfwd, hmode, hp'.trans hp.symm, hn'.trans hn.symm, hf'.trans hf.symm⟩

end Sys2Proof.Machine

/-! SUPPORT. A word is the sum of the fields of its format (30_encoding.md R48 to R53), the number a command's word is,
and which words each arm of the decoder refuses (R54). -/

namespace Sys2Proof

/-! ### A word from its fields -/

theorem toNat_eq_formatT (w : Word) :
    w.toNat = (opField w).toNat * 2 ^ 28 + (idxField w).toNat * 2 ^ 22 + (reservedT w).toNat * 2 ^ 21 +
      (symField w).toNat := by
  simp only [opField, idxField, reservedT, symField, BitVec.extractLsb'_toNat, Nat.shiftRight_eq_div_pow]
  omega

theorem toNat_eq_formatS (w : Word) :
    w.toNat = (opField w).toNat * 2 ^ 28 + (reservedS w).toNat * 2 ^ 21 + (symField w).toNat := by
  simp only [opField, reservedS, symField, BitVec.extractLsb'_toNat, Nat.shiftRight_eq_div_pow]
  omega

theorem toNat_eq_formatB (w : Word) :
    w.toNat = (opField w).toNat * 2 ^ 28 + (reservedB w).toNat * 2 ^ 8 + (byteField w).toNat := by
  simp only [opField, reservedB, byteField, BitVec.extractLsb'_toNat, Nat.shiftRight_eq_div_pow]
  omega

theorem toNat_eq_formatN (w : Word) : w.toNat = (opField w).toNat * 2 ^ 28 + (reservedN w).toNat := by
  simp only [opField, reservedN, BitVec.extractLsb'_toNat, Nat.shiftRight_eq_div_pow]
  omega

theorem toNat_eq_formatC (w : Word) :
    w.toNat = (opField w).toNat * 2 ^ 28 + (csrField w).toNat * 2 ^ 24 + (reservedC w).toNat * 2 ^ 16 +
      (immField w).toNat := by
  simp only [opField, csrField, reservedC, immField, BitVec.extractLsb'_toNat, Nat.shiftRight_eq_div_pow]
  omega

/-! ### The number a command's word is -/

theorem toNat_encode_tblw (idx : Value) (sym : Codepoint) :
    (encode (.tblw idx sym)).toNat = 0x1 * 2 ^ 28 + idx.toNat * 2 ^ 22 + sym.toNat := by
  obtain ⟨hop, hidx, hres, hsym⟩ := encode_tblw_fields idx sym
  simp [toNat_eq_formatT (encode _), hop, hidx, hres, hsym]

theorem toNat_encode_tblr (idx : Value) : (encode (.tblr idx)).toNat = 0x2 * 2 ^ 28 + idx.toNat * 2 ^ 22 := by
  obtain ⟨hop, hidx, hres, hsym⟩ := encode_tblr_fields idx
  simp [toNat_eq_formatT (encode _), hop, hidx, hres, hsym]

theorem toNat_encode_lookup (sym : Codepoint) : (encode (.lookup sym)).toNat = 0x3 * 2 ^ 28 + sym.toNat := by
  obtain ⟨hop, hres, hsym⟩ := encode_lookup_fields sym
  simp [toNat_eq_formatS (encode _), hop, hres, hsym]

theorem toNat_encode_ebyte (b : Byte) : (encode (.ebyte b)).toNat = 0x5 * 2 ^ 28 + b.toNat := by
  obtain ⟨hop, hres, hb⟩ := encode_ebyte_fields b
  simp [toNat_eq_formatB (encode _), hop, hres, hb]

theorem toNat_encode_dsym (sym : Codepoint) : (encode (.dsym sym)).toNat = 0x7 * 2 ^ 28 + sym.toNat := by
  obtain ⟨hop, hres, hsym⟩ := encode_dsym_fields sym
  simp [toNat_eq_formatS (encode _), hop, hres, hsym]

theorem toNat_encode_csrr (csr : CsrNum) : (encode (.csrr csr)).toNat = 0xA * 2 ^ 28 + csr.toNat * 2 ^ 24 := by
  obtain ⟨hop, hcsr, hres, himm⟩ := encode_csrr_fields csr
  simp [toNat_eq_formatC (encode _), hop, hcsr, hres, himm]

theorem toNat_encode_csrw (csr : CsrNum) (imm : Imm) :
    (encode (.csrw csr imm)).toNat = 0xB * 2 ^ 28 + csr.toNat * 2 ^ 24 + imm.toNat := by
  obtain ⟨hop, hcsr, hres, himm⟩ := encode_csrw_fields csr imm
  simp [toNat_eq_formatC (encode _), hop, hcsr, hres, himm]

/-- A decoded word is the word of its command: both are the same sum of fields. -/
theorem encode_of_decode {w : Word} {i : Instr} (h : decode w = .ok i) : encode i = w := by
  apply BitVec.eq_of_toNat_eq
  obtain ⟨hop, hres, rfl⟩ | ⟨hop, hres, hsym, rfl⟩ | ⟨hop, hres, rfl⟩ | ⟨hop, hres, rfl⟩ | ⟨hop, hres, rfl⟩ |
    ⟨hop, hres, rfl⟩ | ⟨hop, hres, rfl⟩ | ⟨hop, hres, rfl⟩ | ⟨hop, hres, rfl⟩ | ⟨hop, hres, himm, -, rfl⟩ |
    ⟨hop, hres, -, rfl⟩ := decode_ok_cases h
  · simp [toNat_encode_tblw, toNat_eq_formatT w, hop, hres]
  · simp [toNat_encode_tblr, toNat_eq_formatT w, hop, hres, hsym]
  · simp [toNat_encode_lookup, toNat_eq_formatS w, hop, hres]
  · simp [encode, toNat_eq_formatN w, hop, hres]
  · simp [toNat_encode_ebyte, toNat_eq_formatB w, hop, hres]
  · simp [encode, toNat_eq_formatN w, hop, hres]
  · simp [toNat_encode_dsym, toNat_eq_formatS w, hop, hres]
  · simp [encode, toNat_eq_formatN w, hop, hres]
  · simp [encode, toNat_eq_formatN w, hop, hres]
  · simp [toNat_encode_csrr, toNat_eq_formatC w, hop, hres, himm]
  · simp [toNat_encode_csrw, toNat_eq_formatC w, hop, hres]

theorem wellFormed_of_decode {w : Word} {i : Instr} (h : decode w = .ok i) : i.wellFormed = true := by
  obtain ⟨-, -, rfl⟩ | ⟨-, -, -, rfl⟩ | ⟨-, -, rfl⟩ | ⟨-, -, rfl⟩ | ⟨-, -, rfl⟩ | ⟨-, -, rfl⟩ | ⟨-, -, rfl⟩ |
    ⟨-, -, rfl⟩ | ⟨-, -, rfl⟩ | ⟨-, -, -, hcsr, rfl⟩ | ⟨-, -, hcsr, rfl⟩ := decode_ok_cases h
  iterate 9 exact rfl
  · exact decide_eq_true hcsr
  · exact decide_eq_true hcsr

/-! ### The words each arm refuses (R54) -/

theorem decodeTblw_refuses (w : Word) : (∃ e, decodeTblw w = .error e) ↔ reservedT w ≠ 0 := by
  unfold decodeTblw
  split <;> simp_all

theorem decodeTblr_refuses (w : Word) : (∃ e, decodeTblr w = .error e) ↔ reservedT w ≠ 0 ∨ symField w ≠ 0 := by
  unfold decodeTblr
  split
  · simp_all
  · split <;> simp_all

theorem decodeS_refuses (w : Word) (mk : Codepoint → Instr) : (∃ e, decodeS w mk = .error e) ↔ reservedS w ≠ 0 := by
  unfold decodeS
  split <;> simp_all

theorem decodeB_refuses (w : Word) : (∃ e, decodeB w = .error e) ↔ reservedB w ≠ 0 := by
  unfold decodeB
  split <;> simp_all

theorem decodeN_refuses (w : Word) (i : Instr) : (∃ e, decodeN w i = .error e) ↔ reservedN w ≠ 0 := by
  unfold decodeN
  split <;> simp_all

theorem decodeCsrr_refuses (w : Word) :
    (∃ e, decodeCsrr w = .error e) ↔ reservedC w ≠ 0 ∨ immField w ≠ 0 ∨ 4 ≤ (csrField w).toNat := by
  unfold decodeCsrr
  split
  · simp_all
  · split
    · simp_all
    · split <;> simp_all

theorem decodeCsrw_refuses (w : Word) :
    (∃ e, decodeCsrw w = .error e) ↔ reservedC w ≠ 0 ∨ 2 ≤ (csrField w).toNat := by
  unfold decodeCsrw
  split
  · simp_all
  · split <;> simp_all

end Sys2Proof

namespace Sys2Proof.Machine

/-- The decoder refuses exactly the words of R54: opcode by opcode, the words its arm refuses. -/
theorem decode_refuses_iff (w : Word) : (∃ e, decode w = .error e) ↔ IllegalWord w := by
  unfold decode IllegalWord
  split <;> rename_i hop <;> unfold opField at hop
  · simp [hop, decodeTblw_refuses, reservedT]
  · simp [hop, decodeTblr_refuses, reservedT, symField]
  · simp [hop, decodeS_refuses, reservedS]
  · simp [hop, decodeN_refuses, reservedN]
  · simp [hop, decodeB_refuses, reservedB]
  · simp [hop, decodeN_refuses, reservedN]
  · simp [hop, decodeS_refuses, reservedS]
  · simp [hop, decodeN_refuses, reservedN]
  · simp [hop, decodeN_refuses, reservedN]
  · simp [hop, decodeCsrr_refuses, reservedC, immField, csrField]
  · simp [hop, decodeCsrw_refuses, reservedC, csrField]
  · simp only [opField, imp_false] at *
    exact iff_of_true ⟨_, rfl⟩ (.inl (by omega))

end Sys2Proof.Machine

/-! The statements of 30_encoding.md on words and commands. -/

namespace Sys2Proof.Machine

/-- Settles O2, by `decode_encode`. -/
theorem decodeOfEncode : Obligations.DecodeOfEncode := fun _ => decode_encode

/-- Settles O3: what decodes is well-formed, and the word is the sum of its fields. -/
theorem encodeOfDecode : Obligations.EncodeOfDecode := fun _ _ h => ⟨wellFormed_of_decode h, encode_of_decode h⟩

/-- Settles O4: each arm of R56 copies its fields, as `decode_ok_cases` lists them. -/
theorem operandFields : Obligations.OperandFields := by
  intro w i h
  obtain ⟨hop, -, rfl⟩ | ⟨hop, -, -, rfl⟩ | ⟨hop, -, rfl⟩ | ⟨hop, -, rfl⟩ | ⟨hop, -, rfl⟩ | ⟨hop, -, rfl⟩ |
    ⟨hop, -, rfl⟩ | ⟨hop, -, rfl⟩ | ⟨hop, -, rfl⟩ | ⟨hop, -, -, -, rfl⟩ | ⟨hop, -, -, rfl⟩ := decode_ok_cases h
  · exact ⟨hop, rfl, rfl⟩
  · exact ⟨hop, rfl⟩
  · exact ⟨hop, rfl⟩
  · exact hop
  · exact ⟨hop, rfl⟩
  · exact hop
  · exact ⟨hop, rfl⟩
  · exact hop
  · exact hop
  · exact ⟨hop, rfl⟩
  · exact ⟨hop, rfl, rfl⟩

/-- Settles O5: the refused words arm by arm, and what a refused word runs. -/
theorem illegalWordsRaise : Obligations.IllegalWordsRaise := by
  refine ⟨decode_refuses_iff, fun w s illegal => ?_⟩
  obtain ⟨e, he⟩ := (decode_refuses_iff w).2 illegal
  obtain ⟨i, hi, -⟩ | ⟨-, -, run⟩ := runWord_cases w s
  · simp [he] at hi
  · exact run

/-- Settles O43: a word appends legal answers, a pop moves one over, the host's other moves add none. -/
theorem responsesStayLegal : Obligations.ResponsesStayLegal := by
  refine ⟨nofun, fun s t legal h => ?_⟩
  rw [List.forall_mem_append] at legal ⊢
  obtain ⟨queued, popped⟩ := legal
  obtain ⟨w, -, -, hr⟩ | ⟨-, -, rfl⟩ | ⟨w, rest, -, -, rfl⟩ | ⟨r, q, rest, -, -, hq, rfl⟩ | ⟨rest, -, -, rfl⟩ :=
    step_cases h
  · obtain ⟨i, u, rs, -, he, rfl⟩ | rfl := runWord_next hr
    · obtain ⟨-, -, -, hp⟩ := exec_outside (exec_of_effect he)
      exact ⟨List.forall_mem_append.2 ⟨queued, he.legal⟩, hp ▸ popped⟩
    · exact ⟨List.forall_mem_append.2 ⟨queued, by simpa using ofCause_legal _⟩, by simpa using popped⟩
  · exact ⟨queued, popped⟩
  · exact ⟨queued, popped⟩
  · rw [hq, List.forall_mem_cons] at queued
    exact ⟨queued.2, List.forall_mem_append.2 ⟨popped, by simpa using queued.1⟩⟩
  · exact ⟨nofun, popped⟩

/-- Settles O1: the 14 commands are well-formed, so that their words decode to them. -/
theorem sampleWordsDecode : Obligations.SampleWordsDecode := by
  unfold Obligations.SampleWordsDecode
  intro p hp
  have sample : p.2.wellFormed = true ∧ encode p.2 = p.1 := by
    revert p
    decide
  exact ⟨sample.2, sample.2 ▸ decode_encode sample.1⟩

/-- Settles O11: with the port empty the step is the host's turn. -/
theorem hostIssueRule : Obligations.HostIssueRule := by
  constructor
  · intro s w rest hp hh
    simp [step, portStep, hostTurn, hp, hh, State.placeWord]
  · intro s hp hh
    simp [step, portStep, hostTurn, hp, hh]

/-- Settles O51: `TBLLOAD` by its count, the others by definition. -/
theorem pseudoExpansions : Obligations.PseudoExpansions := by
  refine ⟨fun ss hn => if_neg hn, fun ss hn => ⟨_, if_pos hn, by simp [hn], fun k hk => by simp [hk]⟩,
    fun _ => rfl, fun _ => rfl, rfl, rfl, rfl⟩

end Sys2Proof.Machine

/-! SUPPORT. What the assembler's operand readers give (30_encoding.md R58): the number a text spells, the value in
its field, and the operands of a pseudo-instruction. -/

namespace Sys2Proof.Machine

/-! ### The number a text spells -/

theorem digitsFrom_toDigits {base : Nat} (hb : 1 < base) (hb' : base ≤ 16) (n : Nat) :
    digitsFrom base 0 (Nat.toDigits base n) = some n := by
  induction n using Nat.strongRecOn with
  | ind n ih =>
    by_cases hn : n < base
    · rw [Nat.toDigits_of_lt_base hn]
      simp [digitsFrom, digitValue_digitChar n (by omega), hn]
    · have hlast : n % base < base := Nat.mod_lt _ (by omega)
      rw [Nat.toDigits_of_base_le hb (by omega), digitsFrom_append, ih _ (Nat.div_lt_self (by omega) hb)]
      simp [digitsFrom, digitValue_digitChar _ (show n % base < 16 by omega), hlast, Nat.div_add_mod']

theorem digitsFrom_replicate_zero {base : Nat} (hb : 0 < base) (k : Nat) :
    digitsFrom base 0 (List.replicate k '0') = some 0 := by
  induction k with
  | zero => rfl
  | succ k ih => simpa [List.replicate_succ, digitsFrom, show digitValue '0' = some 0 from rfl, hb] using ih

/-- Leading zeros do not change the number. -/
theorem digits_zeros_toDigits {base : Nat} (hb : 1 < base) (hb' : base ≤ 16) (k n : Nat) :
    digits base (List.replicate k '0' ++ Nat.toDigits base n) = some n := by
  simp [digits, Nat.toDigits_ne_nil, digitsFrom_append, digitsFrom_replicate_zero (show 0 < base by omega),
    digitsFrom_toDigits hb hb']

theorem digits_toDigits {base : Nat} (hb : 1 < base) (hb' : base ≤ 16) (n : Nat) :
    digits base (Nat.toDigits base n) = some n :=
  digits_zeros_toDigits hb hb' 0 n

theorem not_mem_toDigits_ten {c : Char} (hc : c.isDigit = false) (n : Nat) : c ∉ Nat.toDigits 10 n := fun hm =>
  absurd (Nat.isDigit_of_mem_toDigits (by decide) (by decide) hm) (by simp [hc])

theorem number_of_no_x {cs : List Char} (hx : 'x' ∉ cs) : number cs = digits 10 cs := by
  unfold number
  split
  · simp at hx
  · rfl

theorem symbolNumber_of_no_U {cs : List Char} (hU : 'U' ∉ cs) : symbolNumber cs = number cs := by
  unfold symbolNumber
  split
  · simp at hU
  · rfl

theorem csrNumber_of_no_T_R {cs : List Char} (hT : 'T' ∉ cs) (hR : 'R' ∉ cs) : csrNumber cs = number cs := by
  have ne : ∀ name : List Char, 'T' ∈ name ∨ 'R' ∈ name → cs ≠ name := by
    rintro name (h | h) rfl
    · exact hT h
    · exact hR h
  simp only [csrNumber, ne ['C', 'T', 'R', 'L'] (by decide), ne ['S', 'T', 'A', 'T', 'U', 'S'] (by decide),
    ne ['E', 'R', 'R', 'C', 'A', 'U', 'S', 'E'] (by decide), ne ['E', 'R', 'R', 'V', 'A', 'L'] (by decide), if_false]

theorem number_toDigits_ten (n : Nat) : number (Nat.toDigits 10 n) = some n :=
  (number_of_no_x (not_mem_toDigits_ten (by decide) n)).trans (digits_toDigits (by decide) (by decide) n)

theorem number_hex (n : Nat) : number ('0' :: 'x' :: Nat.toDigits 16 n) = some n :=
  digits_toDigits (by decide) (by decide) n

theorem symbolNumber_toDigits_ten (n : Nat) : symbolNumber (Nat.toDigits 10 n) = some n :=
  (symbolNumber_of_no_U (not_mem_toDigits_ten (by decide) n)).trans (number_toDigits_ten n)

theorem csrNumber_toDigits_ten (n : Nat) : csrNumber (Nat.toDigits 10 n) = some n :=
  (csrNumber_of_no_T_R (not_mem_toDigits_ten (by decide) n) (not_mem_toDigits_ten (by decide) n)).trans
    (number_toDigits_ten n)

theorem symbolNumber_codepoint (k n : Nat) :
    symbolNumber ('U' :: '+' :: (List.replicate k '0' ++ Nat.toDigits 16 n)) =
      if 4 ≤ k + (Nat.toDigits 16 n).length ∧ k + (Nat.toDigits 16 n).length ≤ 6 then some n else none := by
  simp [symbolNumber, digits_zeros_toDigits]

/-! ### The value in its field -/

theorem fit_of_lt {width n : Nat} (h : n < 2 ^ width) : fit width n = some (BitVec.ofNat width n) := if_pos h

theorem fit_eq_none (width n : Nat) : fit width n = none ↔ 2 ^ width ≤ n := by
  simp [fit]

theorem fit_eq_some (width n : Nat) (b : BitVec width) : fit width n = some b ↔ b.toNat = n := by
  by_cases h : n < 2 ^ width
  · rw [fit_of_lt h, Option.some_inj, ← BitVec.toNat_inj, BitVec.toNat_ofNat, Nat.mod_eq_of_lt h, eq_comm]
  · rw [(fit_eq_none width n).2 (by omega)]
    have := b.isLt
    exact iff_of_false nofun (by omega)

/-- An operand reader gives a value exactly when the number spelled is that value. -/
theorem bind_fit_eq_some (width : Nat) (spelled : Option Nat) (b : BitVec width) :
    spelled.bind (fit width) = some b ↔ spelled = some b.toNat := by
  cases spelled with
  | none => simp
  | some n => rw [Option.bind_some, fit_eq_some, Option.some_inj, eq_comm]

theorem field_of_number {width n : Nat} {cs : List Char} (h : number cs = some n) : field width cs = fit width n := by
  simp [field, h]

theorem symbolOperand_of_number {n : Nat} {cs : List Char} (h : symbolNumber cs = some n) :
    symbolOperand cs = fit 21 n := by
  simp [symbolOperand, h]

theorem csrOperand_of_number {n : Nat} {cs : List Char} (h : csrNumber cs = some n) : csrOperand cs = fit 4 n := by
  simp [csrOperand, h]

/-- A list of operands is taken when all fit, and refused when one does not. -/
theorem readAll_of_numbers {width : Nat} {spells : List Char → Option Nat} {parts : List (List Char)} {ns : List Nat}
    (h : parts.map spells = ns.map some) :
    readAll (fun cs => (spells cs).bind (fit width)) parts =
      if ∀ n ∈ ns, n < 2 ^ width then some (ns.map (BitVec.ofNat width)) else none := by
  have values : parts.map (fun cs => (spells cs).bind (fit width)) = ns.map (fit width) := by
    simpa [Function.comp_def] using congrArg (List.map (·.bind (fit width))) h
  split
  case isTrue fits =>
    rw [readAll_eq_some, values, List.map_map]
    exact List.map_congr_left fun n hn => fit_of_lt (fits n hn)
  case isFalse large =>
    rw [Option.eq_none_iff_forall_ne_some]
    intro bs hbs
    rw [readAll_eq_some, values] at hbs
    refine large fun n hn => ?_
    obtain ⟨b, -, hb⟩ := List.mem_map.1 (hbs ▸ List.mem_map_of_mem hn)
    rw [← (fit_eq_some width n b).1 hb.symm]
    exact b.isLt

/-! ### The words of a mnemonic (R58, R59) -/

theorem eq_ofNat_of_toNat {w : Word} {n : Nat} (h : w.toNat = n) : w = BitVec.ofNat 32 n := by
  rw [← h, BitVec.ofNat_toNat, BitVec.setWidth_eq]

theorem encode_tblw_ofNat {n m : Nat} (hn : n < 2 ^ 6) (hm : m < 2 ^ 21) :
    encode (.tblw (BitVec.ofNat 6 n) (BitVec.ofNat 21 m)) = BitVec.ofNat 32 (0x1 * 2 ^ 28 + n * 2 ^ 22 + m) :=
  eq_ofNat_of_toNat (by
    rw [toNat_encode_tblw, BitVec.toNat_ofNat, BitVec.toNat_ofNat, Nat.mod_eq_of_lt hn, Nat.mod_eq_of_lt hm])

theorem encode_tblr_ofNat {n : Nat} (hn : n < 2 ^ 6) :
    encode (.tblr (BitVec.ofNat 6 n)) = BitVec.ofNat 32 (0x2 * 2 ^ 28 + n * 2 ^ 22) :=
  eq_ofNat_of_toNat (by rw [toNat_encode_tblr, BitVec.toNat_ofNat, Nat.mod_eq_of_lt hn])

theorem encode_lookup_ofNat {m : Nat} (hm : m < 2 ^ 21) :
    encode (.lookup (BitVec.ofNat 21 m)) = BitVec.ofNat 32 (0x3 * 2 ^ 28 + m) :=
  eq_ofNat_of_toNat (by rw [toNat_encode_lookup, BitVec.toNat_ofNat, Nat.mod_eq_of_lt hm])

theorem encode_ebyte_ofNat {n : Nat} (hn : n < 2 ^ 8) :
    encode (.ebyte (BitVec.ofNat 8 n)) = BitVec.ofNat 32 (0x5 * 2 ^ 28 + n) :=
  eq_ofNat_of_toNat (by rw [toNat_encode_ebyte, BitVec.toNat_ofNat, Nat.mod_eq_of_lt hn])

theorem encode_dsym_ofNat {m : Nat} (hm : m < 2 ^ 21) :
    encode (.dsym (BitVec.ofNat 21 m)) = BitVec.ofNat 32 (0x7 * 2 ^ 28 + m) :=
  eq_ofNat_of_toNat (by rw [toNat_encode_dsym, BitVec.toNat_ofNat, Nat.mod_eq_of_lt hm])

theorem encode_csrr_ofNat {c : Nat} (hc : c < 2 ^ 4) :
    encode (.csrr (BitVec.ofNat 4 c)) = BitVec.ofNat 32 (0xA * 2 ^ 28 + c * 2 ^ 24) :=
  eq_ofNat_of_toNat (by rw [toNat_encode_csrr, BitVec.toNat_ofNat, Nat.mod_eq_of_lt hc])

theorem encode_csrw_ofNat {c n : Nat} (hc : c < 2 ^ 4) (hn : n < 2 ^ 16) :
    encode (.csrw (BitVec.ofNat 4 c) (BitVec.ofNat 16 n)) = BitVec.ofNat 32 (0xB * 2 ^ 28 + c * 2 ^ 24 + n) :=
  eq_ofNat_of_toNat (by
    rw [toNat_encode_csrw, BitVec.toNat_ofNat, BitVec.toNat_ofNat, Nat.mod_eq_of_lt hc, Nat.mod_eq_of_lt hn])

/-- One operand: its words where it fits, none where it does not. -/
theorem map_fit {width n : Nat} {words : BitVec width → List Word} {ws : List Word}
    (h : n < 2 ^ width → words (BitVec.ofNat width n) = ws) :
    (fit width n).map words = if n < 2 ^ width then some ws else none := by
  by_cases hn : n < 2 ^ width
  · simp [fit, hn, h hn]
  · simp [fit, hn]

/-- Two operands: their words where both fit, none where one does not. -/
theorem bind_fit_map_fit {v w n m : Nat} {words : BitVec v → BitVec w → List Word} {ws : List Word}
    (h : n < 2 ^ v → m < 2 ^ w → words (BitVec.ofNat v n) (BitVec.ofNat w m) = ws) :
    ((fit v n).bind fun x => (fit w m).map (words x)) = if n < 2 ^ v ∧ m < 2 ^ w then some ws else none := by
  by_cases hn : n < 2 ^ v
  · rw [fit_of_lt hn, Option.bind_some, map_fit (h hn)]
    simp only [hn, true_and]
  · simp [fit, hn]

theorem assembleCommand_tblw {a b : List Char} {n m : Nat} (hn : number a = some n) (hm : symbolNumber b = some m) :
    assembleCommand "TBLW" [a, b] =
      if n < 64 ∧ m < 2 ^ 21 then some [BitVec.ofNat 32 (0x1 * 2 ^ 28 + n * 2 ^ 22 + m)] else none := by
  have reads : assembleCommand "TBLW" [a, b] =
      (fit 6 n).bind fun idx => (fit 21 m).map fun sym => wordsOf [.tblw idx sym] := by
    simp only [assembleCommand, field_of_number hn, symbolOperand_of_number hm]
    cases fit 6 n <;> cases fit 21 m <;> rfl
  exact reads.trans (bind_fit_map_fit fun h h' => congrArg (fun w => [w]) (encode_tblw_ofNat h h'))

theorem assembleCommand_csrw {a b : List Char} {c n : Nat} (hc : csrNumber a = some c) (hn : number b = some n) :
    assembleCommand "CSRW" [a, b] =
      if c < 16 ∧ n < 2 ^ 16 then some [BitVec.ofNat 32 (0xB * 2 ^ 28 + c * 2 ^ 24 + n)] else none := by
  have reads : assembleCommand "CSRW" [a, b] =
      (fit 4 c).bind fun csr => (fit 16 n).map fun imm => wordsOf [.csrw csr imm] := by
    simp only [assembleCommand, field_of_number hn, csrOperand_of_number hc]
    cases fit 4 c <;> cases fit 16 n <;> rfl
  exact reads.trans (bind_fit_map_fit fun h h' => congrArg (fun w => [w]) (encode_csrw_ofNat h h'))

theorem assembleCommand_of_number {a : List Char} {n : Nat} (hn : number a = some n) :
    assembleCommand "TBLR" [a] = (if n < 64 then some [BitVec.ofNat 32 (0x2 * 2 ^ 28 + n * 2 ^ 22)] else none) ∧
    assembleCommand "EBYTE" [a] = (if n < 256 then some [BitVec.ofNat 32 (0x5 * 2 ^ 28 + n)] else none) ∧
    assembleCommand ".word" [a] = (if n < 2 ^ 32 then some [BitVec.ofNat 32 n] else none) := by
  simp only [assembleCommand, field_of_number hn]
  exact ⟨map_fit fun h => congrArg (fun w => [w]) (encode_tblr_ofNat h),
    map_fit fun h => congrArg (fun w => [w]) (encode_ebyte_ofNat h), map_fit fun _ => rfl⟩

theorem assembleCommand_of_symbol {a : List Char} {m : Nat} (hm : symbolNumber a = some m) :
    assembleCommand "LOOKUP" [a] = (if m < 2 ^ 21 then some [BitVec.ofNat 32 (0x3 * 2 ^ 28 + m)] else none) ∧
    assembleCommand "DSYM" [a] = (if m < 2 ^ 21 then some [BitVec.ofNat 32 (0x7 * 2 ^ 28 + m)] else none) := by
  simp only [assembleCommand, symbolOperand_of_number hm]
  exact ⟨map_fit fun h => congrArg (fun w => [w]) (encode_lookup_ofNat h),
    map_fit fun h => congrArg (fun w => [w]) (encode_dsym_ofNat h)⟩

theorem assembleCommand_csrr {a : List Char} {c : Nat} (hc : csrNumber a = some c) :
    assembleCommand "CSRR" [a] = if c < 16 then some [BitVec.ofNat 32 (0xA * 2 ^ 28 + c * 2 ^ 24)] else none := by
  simp only [assembleCommand, csrOperand_of_number hc]
  exact map_fit fun h => congrArg (fun w => [w]) (encode_csrr_ofNat h)

theorem wordsOf_encMsg {ns : List Nat} (fits : ∀ n ∈ ns, n < 2 ^ 8) :
    wordsOf (encMsg (ns.map (BitVec.ofNat 8))) =
      ns.map (fun n => BitVec.ofNat 32 (0x5 * 2 ^ 28 + n)) ++ [0x60000000#32] := by
  simp only [wordsOf, encMsg, List.map_append, List.map_map]
  exact congrArg (· ++ _) (List.map_congr_left fun n hn => encode_ebyte_ofNat (fits n hn))

theorem wordsOf_decMsg {ms : List Nat} (fits : ∀ m ∈ ms, m < 2 ^ 21) :
    wordsOf (decMsg (ms.map (BitVec.ofNat 21))) =
      ms.map (fun m => BitVec.ofNat 32 (0x7 * 2 ^ 28 + m)) ++ [0x80000000#32] := by
  simp only [wordsOf, decMsg, List.map_append, List.map_map]
  exact congrArg (· ++ _) (List.map_congr_left fun m hm => encode_dsym_ofNat (fits m hm))

/-- The words of `TBLLOAD`: the index is the symbol's place, below 64. -/
theorem tblLoad_words {ms : List Nat} (fits : ∀ m ∈ ms, m < 2 ^ 21) :
    (tblLoad (ms.map (BitVec.ofNat 21))).map wordsOf =
      if ms.length = 64 then some (ms.mapIdx fun k m => BitVec.ofNat 32 (0x1 * 2 ^ 28 + k * 2 ^ 22 + m)) else none := by
  by_cases count : ms.length = 64
  · simp only [tblLoad, List.length_map, count, if_true, Option.map_some, Option.some_inj]
    refine List.ext_getElem (by simp [wordsOf]) fun k hk _ => ?_
    have index : k < 64 := by simpa [wordsOf, count] using hk
    simpa [wordsOf] using encode_tblw_ofNat index (fits _ (List.getElem_mem (by omega)))
  · simp [tblLoad, count]

theorem assembleCommand_encmsg {parts : List (List Char)} {ns : List Nat} (h : parts.map number = ns.map some) :
    assembleCommand "ENCMSG" parts =
      if ∀ n ∈ ns, n < 256 then some (ns.map (fun n => BitVec.ofNat 32 (0x5 * 2 ^ 28 + n)) ++ [0x60000000#32])
      else none := by
  have operands : readAll (field 8) parts = _ := readAll_of_numbers h
  simp only [assembleCommand, operands]
  by_cases fits : ∀ n ∈ ns, n < 2 ^ 8
  · rw [if_pos fits, Option.map_some, wordsOf_encMsg fits]
    exact (if_pos fits).symm
  · rw [if_neg fits]
    exact (if_neg fits).symm

theorem assembleCommand_of_symbols {parts : List (List Char)} {ms : List Nat}
    (h : parts.map symbolNumber = ms.map some) :
    assembleCommand "DECMSG" parts =
      (if ∀ m ∈ ms, m < 2 ^ 21 then some (ms.map (fun m => BitVec.ofNat 32 (0x7 * 2 ^ 28 + m)) ++ [0x80000000#32])
      else none) ∧
    assembleCommand "TBLLOAD" parts =
      if ms.length = 64 ∧ ∀ m ∈ ms, m < 2 ^ 21 then
        some (ms.mapIdx fun k m => BitVec.ofNat 32 (0x1 * 2 ^ 28 + k * 2 ^ 22 + m))
      else none := by
  have operands : readAll symbolOperand parts = _ := readAll_of_numbers h
  simp only [assembleCommand, operands]
  by_cases fits : ∀ m ∈ ms, m < 2 ^ 21
  · simp only [if_pos fits, Option.map_some, Option.bind_some, wordsOf_decMsg fits, tblLoad_words fits,
      and_iff_left fits, and_self]
  · simp only [fits, and_false, if_false, Option.map_none, Option.bind_none, and_self]

end Sys2Proof.Machine

/-! The statement of 30_encoding.md R58 on the assembler. -/

namespace Sys2Proof.Machine

/-- Settles O52: the numbers texts spell, the readers' values, and the words of each mnemonic. -/
theorem assemblerNeverTruncates : Obligations.AssemblerNeverTruncates :=
  ⟨fun n => ⟨number_toDigits_ten n, number_hex n, symbolNumber_toDigits_ten n, csrNumber_toDigits_ten n⟩,
    symbolNumber_codepoint,
    by decide,
    fit_eq_some,
    fit_eq_none,
    fun width cs => bind_fit_eq_some width (number cs),
    fun cs => bind_fit_eq_some 21 (symbolNumber cs),
    fun cs => bind_fit_eq_some 4 (csrNumber cs),
    fun _ _ _ _ hn hm => assembleCommand_tblw hn hm,
    fun _ _ hn => assembleCommand_of_number hn,
    fun _ _ hm => assembleCommand_of_symbol hm,
    fun _ _ hc => assembleCommand_csrr hc,
    fun _ _ _ _ hc hn => assembleCommand_csrw hc hn,
    fun _ _ h => assembleCommand_encmsg h,
    fun _ _ h => assembleCommand_of_symbols h⟩

end Sys2Proof.Machine

/-! SUPPORT. Further rules of the table: reverse lookups with several matches and without duplicates (40_table.md R63,
R65), the default alphabet (R61), and a word refused as `Busy` (R102). -/

namespace Sys2Proof.Machine

/-- Two matches leave the reverse lookup its free value (R64). -/
theorem lookup_of_two_matches {s : State} {sym : Codepoint} {u v : Value} (hne : u ≠ v) (hu : tableAt s.fwd u = sym)
    (hv : tableAt s.fwd v = sym) : s.lookup sym = (true, Config.dupDraw s.fwd s.drawPoint sym) := by
  have mem_u : u ∈ matching s.fwd sym := (mem_matching ..).2 hu
  have mem_v : v ∈ matching s.fwd sym := (mem_matching ..).2 hv
  obtain ⟨hm, -⟩ | ⟨x, hm, -⟩ | ⟨-, -, -, -, draw⟩ := lookup_cases s sym
  · simp [hm] at mem_u
  · rw [hm, List.mem_singleton] at mem_u mem_v
    exact absurd (mem_u.trans mem_v.symm) hne
  · exact draw

theorem lookup_of_no_match {s : State} {sym : Codepoint} (missing : ∀ v, tableAt s.fwd v ≠ sym) :
    s.lookup sym = (false, 0) := by
  simp [State.lookup, (matching_eq_nil ..).2 missing]

/-- Without duplicates a hit on `v` is the same as the symbol standing at `v`. -/
theorem lookup_hit_iff_of_distinct {s : State} (distinct : DistinctTable s.fwd) (sym : Codepoint) (v : Value) :
    s.lookup sym = (true, v) ↔ tableAt s.fwd v = sym := by
  have once : ∀ u v, tableAt s.fwd u = sym → tableAt s.fwd v = sym → u = v := fun u v hu hv =>
    distinct u v (hu.trans hv.symm)
  rw [← mem_matching]
  obtain ⟨hm, hl⟩ | ⟨x, hm, hl⟩ := lookup_cases_of_at_most_one once
  · simp [hm, hl]
  · simp [hm, hl, eq_comm]

theorem toNat_tableAt_defaultAlphabet (v : Value) :
    (tableAt Config.defaultAlphabet v).toNat = 0x1F600 + v.toNat := by
  have fits := v.isLt
  simp only [tableAt, Config.defaultAlphabet, Vector.getElem_ofFn, BitVec.toNat_ofNat]
  omega

theorem defaultAlphabet_distinct : DistinctTable Config.defaultAlphabet := by
  intro u v h
  have sums := congrArg BitVec.toNat h
  rw [toNat_tableAt_defaultAlphabet, toNat_tableAt_defaultAlphabet] at sums
  exact BitVec.eq_of_toNat_eq (Nat.add_left_cancel sums)

/-- The data of a `VAL` response is the number `hit << 8 | v` of R68. -/
theorem ofLookup_eq (hit : Bool) (v : Value) :
    Response.ofLookup hit v = { kind := .val, data := BitVec.ofNat 32 ((hit.toNat <<< 8) ||| v.toNat) } := by
  have flag : flagBit hit <<< 8 = BitVec.ofNat 32 (hit.toNat <<< 8) := by cases hit <;> rfl
  rw [BitVec.ofNat_or, ← flag, BitVec.ofNat_toNat]
  rfl

/-- `LOOKUP` answers the pair of the lookup in one `VAL` response and keeps the rest (R68). -/
theorem exec_lookup (sym : Codepoint) (s : State) :
    exec (.lookup sym) s =
      .next { s with
        rspq := s.rspq ++
          [{ kind := .val
             data := BitVec.ofNat 32 (((s.lookup sym).1.toNat <<< 8) ||| (s.lookup sym).2.toNat) }] } := by
  rw [← ofLookup_eq]
  exact exec_of_effect (.lookup sym)

/-- The record of `Busy` is the word, being the only one of its command (R54, R99). -/
theorem runWord_of_busy {w : Word} {i : Instr} {s : State} (hw : decode w = .ok i) (hi : NeedsIdle i)
    (hopen : s.eopen = true ∨ s.dopen = true) : runWord w s = .next (s.withError 4 w) := by
  rw [runWord_of_decode hw, exec_of_effect (.busy hi ((busy_eq_true s).2 hopen)), encode_of_decode hw,
    ← report_eq_recordError, report_eq_withError]
  rfl

/-- A word that R54 calls illegal runs `IllegalCommand` (R101). -/
theorem runWord_of_illegal {w : Word} (illegal : IllegalWord w) (s : State) :
    runWord w s = .next (s.withError 3 w) :=
  illegalWordsRaise.2 w s illegal

end Sys2Proof.Machine

/-! The statements of 40_table.md. -/

namespace Sys2Proof.Machine

/-- Settles O13: the three cases of R63 by the number of matches. -/
theorem reverseLookup : Obligations.ReverseLookup := fun _ _ =>
  ⟨lookup_of_no_match, fun _ hv only => lookup_of_only_match hv only, fun _ _ hne hu hv =>
    lookup_of_two_matches hne hu hv⟩

/-- Settles O14: a hit is the entry's place (`lookup_hit_iff_of_distinct`); reset and `STDTBL` load the alphabet. -/
theorem lookupInverse : Obligations.LookupInverse := by
  refine ⟨fun s distinct => ⟨fun v => ?_, fun sym v => ?_⟩, defaultAlphabet_distinct, fun _ distinct => distinct,
    fun s t distinct ho hd h => ?_⟩
  · exact (lookup_hit_iff_of_distinct distinct _ v).2 rfl
  · exact (lookup_hit_iff_of_distinct distinct sym v).1
  · rw [exec_of_effect (.stdtbl ((busy_eq_false s).2 ⟨ho, hd⟩))] at h
    cases h
    exact distinct

/-- Settles O16: the idle effect, `Busy`, and the reserved bit of format T. -/
theorem tblwEffect : Obligations.TblwEffect := by
  refine ⟨fun idx sym s ho hd => ?_, fun w idx sym s hw => runWord_of_busy hw (.inl ⟨idx, sym, rfl⟩),
    fun w s hop hres => runWord_of_illegal (by simp [IllegalWord, hop, hres]) s⟩
  simpa [tableSet] using exec_of_effect (.tblw idx sym ((busy_eq_false s).2 ⟨ho, hd⟩))

/-- Settles O18: the pair of the lookup, which is 0 on a miss, and the reserved bits of format S. -/
theorem lookupEffect : Obligations.LookupEffect := by
  refine ⟨exec_lookup, fun sym s missing => ?_,
    fun w s hop hres => runWord_of_illegal (by simp [IllegalWord, hop, hres]) s⟩
  rw [exec_lookup, lookup_of_no_match missing]
  rfl

/-- Settles O17: the read's effect, and the two conditions that make a `TBLR` illegal. -/
theorem tblrEffect : Obligations.TblrEffect := by
  refine ⟨fun idx _ => exec_of_effect (.tblr idx), fun w s hop illegal => runWord_of_illegal ?_ s⟩
  obtain reserved | symbol := illegal
  · simp [IllegalWord, hop, reserved]
  · simp [IllegalWord, hop, symbol]

/-- Settles O19: the idle effect, `Busy`, and the reserved bits of format N. -/
theorem stdtblEffect : Obligations.StdtblEffect := by
  refine ⟨fun s ho hd => ?_, fun w s hw => runWord_of_busy hw (.inr (.inl rfl)),
    fun w s hop hres => runWord_of_illegal (by simp [IllegalWord, hop, hres]) s⟩
  simpa using exec_of_effect (.stdtbl ((busy_eq_false s).2 ⟨ho, hd⟩))

end Sys2Proof.Machine

/-! SUPPORT. The bit-slice stage (41_encode.md R70 to R72), the length of a message (R73), and a run of commands as one
effect after the other (44_host_functions.md R89). -/

namespace Sys2Proof.Machine

/-! ### The values of a group (R70, R71) -/

theorem toNat_eq_lanes (g : Group) :
    g.toNat = (lane0 g).toNat * 2 ^ 18 + (lane1 g).toNat * 2 ^ 12 + (lane2 g).toNat * 2 ^ 6 + (lane3 g).toNat := by
  simp only [lane0, lane1, lane2, lane3, BitVec.extractLsb'_toNat, Nat.shiftRight_eq_div_pow]
  omega

/-- A group is the sum of its four values, so no two groups have the same values. -/
theorem slice_injective : Function.Injective slice := by
  intro g h same
  simp only [slice, List.cons.injEq, and_true] at same
  obtain ⟨h0, h1, h2, h3⟩ := same
  exact BitVec.eq_of_toNat_eq (by rw [toNat_eq_lanes g, toNat_eq_lanes h, h0, h1, h2, h3])

theorem slice_or (g h : Group) : slice (g ||| h) = List.zipWith (· ||| ·) (slice g) (slice h) := by
  simp [slice, lane0, lane1, lane2, lane3, BitVec.extractLsb'_or]

/-- The formulas of R71, value by value and bit by bit. -/
theorem slice_bytes (b0 b1 b2 : Byte) :
    slice (b0.setWidth 24 <<< 16 ||| b1.setWidth 24 <<< 8 ||| b2.setWidth 24) =
      [value0 b0, value1 b0 b1, value2 b1 b2, value3 b2] := by
  simp only [slice, lane0, lane1, lane2, lane3, value0, value1, value2, value3, List.cons.injEq, and_true]
  refine ⟨?_, ?_, ?_, ?_⟩ <;> apply BitVec.eq_of_getLsbD_eq <;> intro k hk <;> interval_cases k <;> simp

/-! ### The group after each byte of a message (R72, R75): missing bytes are 0 -/

theorem slice_putByte0 (b : Byte) : slice (putByte0 b) = [value0 b, value1 b 0, 0, 0] := by
  simpa [putByte0, value2, value3] using slice_bytes b 0 0

theorem slice_putByte1_putByte0 (b0 b1 : Byte) :
    slice (putByte1 (putByte0 b0) b1) = [value0 b0, value1 b0 b1, value2 b1 0, 0] := by
  simpa [putByte0, putByte1, value3] using slice_bytes b0 b1 0

theorem slice_putByte2_putByte1_putByte0 (b0 b1 b2 : Byte) :
    slice (putByte2 (putByte1 (putByte0 b0) b1) b2) = [value0 b0, value1 b0 b1, value2 b1 b2, value3 b2] :=
  slice_bytes b0 b1 b2

theorem lane2_eq_zero_of_low {g : Group} (low : g.extractLsb' 0 16 = 0) : lane2 g = 0 := by
  have inside : lane2 g = (g.extractLsb' 0 16).extractLsb' 6 6 := by
    simp [lane2]
  rw [inside, low]
  rfl

/-- The second byte joins the low bits of the second value, and is all of the third where the group's other bytes are
0. -/
theorem slice_putByte1_of_low {g : Group} (b : Byte) (low : g.extractLsb' 0 16 = 0) :
    (slice (putByte1 g b)).take 3 = [lane0 g, lane1 g ||| (b >>> 4).setWidth 6, ((b &&& 0x0F#8) <<< 2).setWidth 6] := by
  have second : slice (b.setWidth 24 <<< 8) = [0, value1 0 b, value2 b 0, 0] := by
    simpa [value0, value3] using slice_bytes 0 b 0
  rw [putByte1, slice_or, second]
  simp [slice, lane2_eq_zero_of_low low, value1, value2]

/-! ### The length of a message (R73) -/

theorem encodeValues_length (bs : List Byte) : (encodeValues bs).length = encodedLength bs.length := by
  induction bs using encodeValues.induct with
  | case1 b0 b1 b2 rest ih =>
    have tail : (rest.length + 1 + 1 + 1) % 3 = rest.length % 3 := by omega
    simp only [encodeValues, encodedLength, List.length_cons, tail] at *
    omega
  | case2 | case3 | case4 => simp [encodeValues, encodedLength, tailSymbols]

theorem tailSymbols_val : ∀ n : Fin 3, tailSymbols n.val = if n = 0 then 0 else if n = 1 then 2 else 3 := by decide

/-! ### A run of commands -/

/-- Commands one after the other: each has its effect on what the one before left, and the answers follow each other. -/
inductive Effects : State → List Instr → State → List Response → Prop where
  | nil (s : State) : Effects s [] s []
  | cons {i : Instr} {is : List Instr} {s u v : State} {rs qs : List Response} (first : Effect s i u rs)
      (others : Effects u is v qs) : Effects s (i :: is) v (rs ++ qs)

/-- From an empty queue a host function runs the commands and reads all their answers. -/
theorem hostRun_of_effects {is : List Instr} {s v : State} {rs : List Response} (h : Effects s is v rs)
    (ready : s.Ready) (legal : ∀ i ∈ is, i.wellFormed = true) (p : List Response) :
    hostRun is { s with rspq := [], popped := p } = .next ({ v with rspq := [], popped := p ++ rs }, rs) := by
  induction h generalizing p with
  | nil s => simp [hostRun]
  | @cons i is s u v rs qs first others ih =>
    rw [List.forall_mem_cons] at legal
    have ready' : ({ s with rspq := [], popped := p } : State).Ready := ⟨ready.params, ready.port⟩
    have command := hostCommand_of_effect ready' legal.1 (first.at_queue [] p)
    have run := ih (first.keeps_ready ready u.rspq u.popped) legal.2 (p ++ [] ++ rs)
    simpa using hostRun_cons_next command run

/-- The host reads the queue empty before its first command, so that it may as well be empty (log 12). -/
theorem hostRun_drained {is : List Instr} (nonempty : is ≠ []) (s : State) : hostRun is s.drained = hostRun is s := by
  cases is with
  | nil => exact absurd rfl nonempty
  | cons i is => simp [hostRun, hostCommand, State.drained]

/-- A host function's message: the registers of its last effect, and all answers read. -/
theorem hostRun_of_effects_of_ne_nil {is : List Instr} {s v : State} {rs : List Response} (h : Effects s is v rs)
    (nonempty : is ≠ []) (ready : s.Ready) (legal : ∀ i ∈ is, i.wellFormed = true) :
    hostRun is s = .next ({ v with rspq := [], popped := s.popped ++ s.rspq ++ rs }, rs) :=
  (hostRun_drained nonempty s).symm.trans (hostRun_of_effects h ready legal _)

/-! ### An encoder message -/

/-- The message, group by group: from `ECNT = 0` the first byte clears what `G` held. -/
theorem effects_encMsg (bs : List Byte) (s : State) (hn : s.ecnt = 0) :
    Effects s (encMsg bs) s.closeEncoder ((encodeValues bs).map fun v => .ofSym (tableAt s.fwd v)) := by
  induction bs using encodeValues.induct generalizing s with
  | case1 b0 b1 b2 rest ih =>
    have run := Effects.cons (.ebyteFirst b0 hn) (.cons (.ebyteSecond b1 rfl) (.cons (.ebyteThird b2 rfl) (ih _ rfl)))
    rwa [slice_putByte2_putByte1_putByte0] at run
  | case2 b0 b1 =>
    have run := Effects.cons (.ebyteFirst b0 hn) (.cons (.ebyteSecond b1 rfl) (.cons .eend (.nil _)))
    rwa [slice_putByte1_putByte0] at run
  | case3 b0 =>
    have run := Effects.cons (.ebyteFirst b0 hn) (.cons .eend (.nil _))
    rwa [slice_putByte0] at run
  | case4 =>
    have run := Effects.cons (.eend (s := s)) (.nil _)
    rwa [hn] at run

/-- With no encoder message open there is nothing to close (R28). -/
theorem State.Inv.closeEncoder_eq {s : State} (inv : s.Inv) (closed : s.eopen = false) : s.closeEncoder = s := by
  obtain ⟨hg, hn⟩ := inv.encoder_clear closed
  simp only [State.closeEncoder, ← hg, ← hn, ← closed]

end Sys2Proof.Machine

/-! The statements of 41_encode.md. -/

namespace Sys2Proof.Machine

/-- Settles O20: the slices are the model's, with `slice_bytes` and `slice_injective`. -/
theorem sliceFormulas : Obligations.SliceFormulas :=
  ⟨fun _ => rfl, slice_bytes, fun _ _ same => slice_injective same⟩

/-- Settles O21: the effect for each `ECNT`, and the reserved bits of format B. -/
theorem ebyteEffect : Obligations.EbyteEffect := by
  refine ⟨fun b s hn => ?_, fun b s hn => ?_, fun b s hn => exec_of_effect (.ebyteThird b hn),
    fun w s hop hres => runWord_of_illegal (by simp [IllegalWord, hop, hres]) s⟩
  · simpa [putByte0] using exec_of_effect (.ebyteFirst b hn)
  · simpa [putByte1] using exec_of_effect (.ebyteSecond b hn)

/-- Settles O22: the tail's effect, what the group held after one and after two bytes, and the reserved bits of format
N. -/
theorem eendEffect : Obligations.EendEffect := by
  refine ⟨fun s => ?_, fun b s t hn h => ?_, fun b s t hn inv h => ?_,
    fun w s hop hres => runWord_of_illegal (by simp [IllegalWord, hop, hres]) s⟩
  · rw [← tailSymbols_val]
    exact exec_of_effect .eend
  · rw [exec_of_effect (.ebyteFirst b hn)] at h
    cases h
    simp [slice_putByte0]
  · rw [exec_of_effect (.ebyteSecond b hn)] at h
    cases h
    exact slice_putByte1_of_low b (inv.ecnt_one hn)

/-- Settles O23: the message's effects leave the encoder closed, as the invariants say it was. -/
theorem encodeMessage : Obligations.EncodeMessage := by
  intro bs s inv idle params
  have run := hostRun_of_effects_of_ne_nil (effects_encMsg bs s (inv.encoder_clear idle.eopen).2) (by simp [encMsg])
    (idle.ready params) (encMsg_wellFormed bs)
  rw [inv.closeEncoder_eq idle.eopen] at run
  exact ⟨encodeValues_length bs, run⟩

end Sys2Proof.Machine

/-! SUPPORT. The bit-pack stage (42_decode.md R78, R79), the bytes of a list of values (R81, R82), and what a symbol
does to the decoder (R77, R80). -/

namespace Sys2Proof.Machine

/-! ### The bytes of a group (R78, R79) -/

theorem toNat_shiftLeft_setWidth (v : Value) (n : Nat) :
    (v.setWidth 8 <<< n).toNat = (v.toNat <<< n) % 256 := by
  have fits := v.isLt
  rw [BitVec.toNat_shiftLeft, BitVec.toNat_setWidth, Nat.mod_eq_of_lt (a := v.toNat) (by omega)]

theorem toNat_ushiftRight_setWidth (v : Value) (n : Nat) :
    (v.setWidth 8 >>> n).toNat = (v.toNat >>> n) % 256 := by
  have fits := v.isLt
  have small : v.toNat >>> n ≤ v.toNat := Nat.shiftRight_le _ _
  rw [BitVec.toNat_ushiftRight, BitVec.toNat_setWidth, Nat.mod_eq_of_lt (by omega), Nat.mod_eq_of_lt (by omega)]

/-- `trunc_8` distributes over the `|` of R78. -/
theorem or_mod_byte (x y : Nat) : (x ||| y) % 256 = x % 256 ||| y % 256 :=
  Nat.or_mod_two_pow (n := 8)

theorem toNat_packByte0 (v1 v2 : Value) :
    (packByte0 v1 v2).toNat = ((v1.toNat <<< 2) ||| (v2.toNat >>> 4)) % 256 := by
  rw [packByte0, BitVec.toNat_or, toNat_shiftLeft_setWidth, toNat_ushiftRight_setWidth, or_mod_byte]

theorem toNat_packByte1 (v2 v3 : Value) :
    (packByte1 v2 v3).toNat = ((v2.toNat <<< 4) ||| (v3.toNat >>> 2)) % 256 := by
  rw [packByte1, BitVec.toNat_or, toNat_shiftLeft_setWidth, toNat_ushiftRight_setWidth, or_mod_byte]

theorem toNat_packByte2 (v3 v4 : Value) :
    (packByte2 v3 v4).toNat = ((v3.toNat <<< 6) ||| v4.toNat) % 256 := by
  rw [packByte2, BitVec.toNat_or, toNat_shiftLeft_setWidth, BitVec.toNat_setWidth, or_mod_byte]

theorem packByte0_zero (v : Value) : packByte0 v 0 = v.setWidth 8 <<< 2 := by
  simp [packByte0]

theorem packByte0_values (b0 b1 : Byte) : packByte0 (value0 b0) (value1 b0 b1) = b0 := by
  apply BitVec.eq_of_getLsbD_eq
  intro k hk
  simp only [packByte0, value0, value1]
  interval_cases k <;> simp

theorem packByte1_values (b0 b1 b2 : Byte) : packByte1 (value1 b0 b1) (value2 b1 b2) = b1 := by
  apply BitVec.eq_of_getLsbD_eq
  intro k hk
  simp only [packByte1, value1, value2]
  interval_cases k <;> simp

theorem packByte2_values (b1 b2 : Byte) : packByte2 (value2 b1 b2) (value3 b2) = b2 := by
  apply BitVec.eq_of_getLsbD_eq
  intro k hk
  simp only [packByte2, value2, value3]
  interval_cases k <;> simp

/-! ### The bytes of a message (R79, R81, R82) -/

/-- R79 over a whole message: packing undoes slicing. -/
theorem decodeBytes_encodeValues (bs : List Byte) : decodeBytes (encodeValues bs) = bs := by
  induction bs using encodeValues.induct with
  | case1 b0 b1 b2 rest ih =>
    simp only [encodeValues, decodeBytes, packByte0_values, packByte1_values, packByte2_values, ih]
  | case2 b0 b1 => simp only [encodeValues, decodeBytes, packByte0_values, packByte1_values]
  | case3 b0 => simp only [encodeValues, decodeBytes, packByte0_values]
  | case4 => rfl

theorem decodeBytes_length (vs : List Value) : (decodeBytes vs).length = decodedLength vs.length := by
  induction vs using decodeBytes.induct with
  | case1 v1 v2 v3 v4 rest ih =>
    have tail : (rest.length + 1 + 1 + 1 + 1) % 4 = rest.length % 4 := by omega
    simp only [decodeBytes, decodedLength, List.length_cons, tail] at *
    omega
  | case2 | case3 | case4 | case5 => simp [decodeBytes, decodedLength, tailBytes]

theorem loneTail_eq_none (vs : List Value) : loneTail vs = none ↔ vs.length % 4 ≠ 1 := by
  induction vs using loneTail.induct with
  | case1 v1 v2 v3 v4 rest ih =>
    have tail : (rest.length + 1 + 1 + 1 + 1) % 4 = rest.length % 4 := by omega
    rw [loneTail, ih, List.length_cons, List.length_cons, List.length_cons, List.length_cons, tail]
  | case2 | case3 | case4 | case5 => simp [loneTail]

theorem decodeBytesLenient_of_none {vs : List Value} (h : loneTail vs = none) :
    decodeBytesLenient vs = decodeBytes vs := by
  simp [decodeBytesLenient, h]

theorem decodeBytesLenient_of_some {vs : List Value} {v : Value} (h : loneTail vs = some v) :
    decodeBytesLenient vs = decodeBytes vs ++ [packByte0 v 0] := by
  simp only [decodeBytesLenient, h, packByte0_zero]

theorem decodeBytesLenient_length (vs : List Value) :
    (decodeBytesLenient vs).length = decodedLength vs.length + if vs.length % 4 = 1 then 1 else 0 := by
  cases h : loneTail vs with
  | none => rw [decodeBytesLenient_of_none h, decodeBytes_length, if_neg ((loneTail_eq_none vs).1 h)]; rfl
  | some v =>
    have lone : vs.length % 4 = 1 := by
      by_contra hne
      simp [(loneTail_eq_none vs).2 hne] at h
    rw [decodeBytesLenient_of_some h, List.length_append, decodeBytes_length, if_pos lone]
    rfl

/-- No encoder message has `4k + 1` symbols (R73). -/
theorem encodedLength_mod_four_ne_one (n : Nat) : encodedLength n % 4 ≠ 1 := by
  unfold encodedLength tailSymbols
  split
  · omega
  · split <;> omega

/-! ### One symbol (R77, R80) -/

/-- A `BYTE` response holds the number of its byte. -/
theorem ofByte_eq (b : Byte) : Response.ofByte b = { kind := .byte, data := BitVec.ofNat 32 b.toNat } := by
  rw [BitVec.ofNat_toNat]
  rfl

/-- R100 written out is the record, and the `ERR` response at the tail. -/
theorem withError_eq_recordError (c : Cause) (info : Word) (s : State) :
    s.withError c.code info = { s.recordError c info with rspq := s.rspq ++ [.ofCause c] } :=
  (report_eq_withError c info s).symm.trans (report_eq_recordError c info s)

section
variable {s : State} {sym : Codepoint} {v : Value}

theorem symbolValue_of_hit (hit : s.lookup sym = (true, v)) : s.symbolValue sym = some v := by
  simp [State.symbolValue, hit]

theorem symbolValue_of_lenient_miss (miss : (s.lookup sym).1 = false) (lenient : s.mode = .lenient) :
    s.symbolValue sym = some 0 := by
  obtain ⟨v, hit, -⟩ | ⟨-, -, hv⟩ | ⟨-, strict, -⟩ := symbolValue_cases s sym
  · simp [hit] at miss
  · exact hv
  · cases strict.symm.trans lenient

theorem symbolValue_of_strict_miss (miss : (s.lookup sym).1 = false) (strict : s.mode = .strict) :
    s.symbolValue sym = none := by
  obtain ⟨v, hit, -⟩ | ⟨-, lenient, -⟩ | ⟨-, -, hv⟩ := symbolValue_cases s sym
  · simp [hit] at miss
  · cases strict.symm.trans lenient
  · exact hv

/-- The first symbol of a group is kept. -/
theorem Effect.dsymFirst (hf : s.dfail = false) (hv : s.symbolValue sym = some v) (hn : s.dcnt = 0) :
    Effect s (.dsym sym) { s with dopen := true, dprev := v, dcnt := 1 } [] := by
  simpa [hn, State.completedByte] using Effect.dsymAccepted sym v hf hv

theorem Effect.dsymSecond (hf : s.dfail = false) (hv : s.symbolValue sym = some v) (hn : s.dcnt = 1) :
    Effect s (.dsym sym) { s with dopen := true, dprev := v, dcnt := 2 } [.ofByte (packByte0 s.dprev v)] := by
  simpa [hn, State.completedByte] using Effect.dsymAccepted sym v hf hv

theorem Effect.dsymThird (hf : s.dfail = false) (hv : s.symbolValue sym = some v) (hn : s.dcnt = 2) :
    Effect s (.dsym sym) { s with dopen := true, dprev := v, dcnt := 3 } [.ofByte (packByte1 s.dprev v)] := by
  simpa [hn, State.completedByte] using Effect.dsymAccepted sym v hf hv

/-- The fourth symbol completes the group. -/
theorem Effect.dsymFourth (hf : s.dfail = false) (hv : s.symbolValue sym = some v) (hn : s.dcnt = 3) :
    Effect s (.dsym sym) { s with dopen := true, dprev := 0, dcnt := 0 } [.ofByte (packByte2 s.dprev v)] := by
  simpa [hn, State.completedByte] using Effect.dsymAccepted sym v hf hv

end

end Sys2Proof.Machine

/-! The statements of 42_decode.md on the bit-pack stage and on single commands. -/

namespace Sys2Proof.Machine

/-- Settles O24: the bytes' numbers, and that two values fill eight bits. -/
theorem packBytes : Obligations.PackBytes := by
  intro v1 v2 v3 v4
  have fits1 := v1.isLt
  have fits2 := v2.isLt
  have high : v1.toNat <<< 2 < 2 ^ 8 := by rw [Nat.shiftLeft_eq]; omega
  have low : v2.toNat >>> 4 < 2 ^ 8 := by rw [Nat.shiftRight_eq_div_pow]; omega
  exact ⟨toNat_packByte0 v1 v2, toNat_packByte1 v2 v3, toNat_packByte2 v3 v4, Nat.or_lt_two_pow high low⟩

/-- Settles O25: the tails are the full group with bytes that are 0. -/
theorem packInvertsSlice : Obligations.PackInvertsSlice := fun b0 b1 b2 =>
  ⟨⟨packByte0_values b0 b1, packByte1_values b0 b1 b2, packByte2_values b1 b2⟩, packByte0_values b0 0,
    packByte0_values b0 b1, packByte1_values b0 b1 0⟩

/-- Settles O26: the effect for a failed message, for a strict miss and for each `DCNT`, and the reserved bits of format
S. -/
theorem dsymEffect : Obligations.DsymEffect := by
  refine ⟨fun sym s hf => ?_, fun sym s hf miss strict => ?_, fun sym v s hf value => ?_,
    fun w s hop hres => runWord_of_illegal (by simp [IllegalWord, hop, hres]) s⟩
  · simpa using exec_of_effect (.dsymIgnored sym hf)
  · have unknown := exec_of_effect (.dsymUnknown sym hf (symbolValue_of_strict_miss miss strict))
    exact unknown.trans (congrArg _ (withError_eq_recordError .invalidSymbol _ _).symm)
  · have hv : s.symbolValue sym = some v := by
      obtain hit | ⟨miss, lenient, rfl⟩ := value
      · exact symbolValue_of_hit hit
      · exact symbolValue_of_lenient_miss miss lenient
    simp only [← toNat_packByte0, ← toNat_packByte1, ← toNat_packByte2, ← ofByte_eq]
    refine ⟨fun hn => ?_, fun hn => exec_of_effect (.dsymSecond hf hv hn),
      fun hn => exec_of_effect (.dsymThird hf hv hn), fun hn => exec_of_effect (.dsymFourth hf hv hn)⟩
    simpa using exec_of_effect (.dsymFirst hf hv hn)

/-- Settles O27: the effect for a failed message, for each 1-symbol tail and for the others, and the reserved bits of
format N. -/
theorem dendEffect : Obligations.DendEffect := by
  refine ⟨fun s hf => exec_of_effect (.dendFailed hf), fun s hf hn strict => ?_, fun s hf hn lenient => ?_,
    fun s hf hn => exec_of_effect (.dendWhole hf hn),
    fun w s hop hres => runWord_of_illegal (by simp [IllegalWord, hop, hres]) s⟩
  · have record : s.withError 2 (s.dprev.setWidth 32) = _ := withError_eq_recordError .truncatedInput _ _
    rw [record]
    exact exec_of_effect (.dendTruncated hf hn strict)
  · have tail : (s.dprev.toNat <<< 2) % 256 = (packByte0 s.dprev 0).toNat := by simp [toNat_packByte0]
    rw [exec_of_effect (.dendLenientTail hf hn lenient), tail, ofByte_eq]
    rfl

end Sys2Proof.Machine

/-! SUPPORT. A decoder message as one effect after the other (42_decode.md R80 to R84). -/

namespace Sys2Proof.Machine

/-! ### Runs of commands in two parts -/

theorem Effects.append {is js : List Instr} {s u v : State} {rs qs : List Response} (first : Effects s is u rs)
    (others : Effects u js v qs) : Effects s (is ++ js) v (rs ++ qs) := by
  induction first with
  | nil s => exact others
  | cons h _ ih => rw [List.append_assoc]; exact .cons h (ih others)

theorem Effects.single {i : Instr} {s u : State} {rs : List Response} (h : Effect s i u rs) : Effects s [i] u rs := by
  simpa using Effects.cons h (.nil u)

/-! ### Closing the decoder -/

theorem closeDecoder_recordError (c : Cause) (info : Word) (s : State) :
    (s.recordError c info).closeDecoder = s.closeDecoder.recordError c info := by
  cases he : s.err <;> simp [State.recordError, State.closeDecoder, he]

/-- With no decoder message open there is nothing to close (R28). -/
theorem State.Inv.closeDecoder_eq {s : State} (inv : s.Inv) (closed : s.dopen = false) : s.closeDecoder = s := by
  obtain ⟨hp, hn, hf⟩ := inv.decoder_clear closed
  cases s
  simp_all [State.closeDecoder]

/-! ### Symbols that have a value (R77) -/

/-- At `s` the symbol has a value: the mode is lenient, or the symbol is in the table. -/
def State.Accepts (s : State) (sym : Codepoint) : Prop := s.mode = .lenient ∨ ∃ v, tableAt s.fwd v = sym

theorem valueOrZero_tableAt {fwd : Table} (distinct : DistinctTable fwd) (v : Value) :
    valueOrZero fwd (tableAt fwd v) = v := by
  have mem : v ∈ matching fwd (tableAt fwd v) := (mem_matching ..).2 rfl
  unfold valueOrZero
  cases hm : matching fwd (tableAt fwd v) with
  | nil => simp [hm] at mem
  | cons u us => exact distinct u v ((mem_matching ..).1 (by simp [hm]))

theorem symbolValue_of_accepts {s : State} {sym : Codepoint} (distinct : DistinctTable s.fwd) (h : s.Accepts sym) :
    s.symbolValue sym = some (valueOrZero s.fwd sym) := by
  by_cases known : ∃ v, tableAt s.fwd v = sym
  · obtain ⟨v, rfl⟩ := known
    rw [valueOrZero_tableAt distinct]
    exact symbolValue_of_hit ((lookup_hit_iff_of_distinct distinct _ v).2 rfl)
  · have missing := not_exists.1 known
    rw [valueOrZero, (matching_eq_nil ..).2 missing]
    exact symbolValue_of_lenient_miss (by rw [lookup_of_no_match missing]) (h.resolve_right known)

/-! ### Values accepted one after the other (R80) -/

/-- The registers after one more accepted value, as `Effect.dsymAccepted` leaves them. -/
def State.accept (s : State) (v : Value) : State :=
  { s with dopen := true, dprev := if s.dcnt = 3 then 0 else v, dcnt := s.dcnt + 1 }

/-- The bytes that values accepted from `s` on complete. -/
def State.acceptedBytes (s : State) : List Value → List Response
  | [] => []
  | v :: vs => s.completedByte v ++ (s.accept v).acceptedBytes vs

/-- The registers after a list of accepted values. -/
def State.acceptAll (s : State) (vs : List Value) : State := vs.foldl State.accept s

section
variable (vs : List Value) (s : State)

theorem acceptAll_dfail : (s.acceptAll vs).dfail = s.dfail := by
  induction vs generalizing s with
  | nil => rfl
  | cons v vs ih => exact ih (s.accept v)

/-- Accepting values changes the decoder's registers only. -/
theorem acceptAll_closeDecoder : (s.acceptAll vs).closeDecoder = s.closeDecoder := by
  induction vs generalizing s with
  | nil => rfl
  | cons v vs ih => exact ih (s.accept v)

theorem acceptAll_fwd : (s.acceptAll vs).fwd = s.fwd := by
  simpa using congrArg State.fwd (acceptAll_closeDecoder vs s)

theorem acceptAll_mode : (s.acceptAll vs).mode = s.mode := by
  simpa using congrArg State.mode (acceptAll_closeDecoder vs s)

variable {s} (hn : s.dcnt = 0)
include hn

/-- From the start of a group the bytes are those of R78, group by group. -/
theorem acceptedBytes_eq : s.acceptedBytes vs = (decodeBytes vs).map .ofByte := by
  induction vs using decodeBytes.induct generalizing s with
  | case1 v1 v2 v3 v4 rest ih =>
    have group := ih (s := (((s.accept v1).accept v2).accept v3).accept v4) (by simp [State.accept, hn])
    simp only [State.acceptedBytes, decodeBytes, group]
    simp [State.accept, State.completedByte, hn]
  | case2 | case3 | case4 | case5 =>
    simp [State.acceptedBytes, decodeBytes, State.accept, State.completedByte, hn]

/-- `DCNT` is 1 exactly where the last group holds a lone value, and `DPREV` is that value. -/
theorem loneTail_eq : loneTail vs = if (s.acceptAll vs).dcnt = 1 then some (s.acceptAll vs).dprev else none := by
  induction vs using loneTail.induct generalizing s with
  | case1 v1 v2 v3 v4 rest ih => exact ih (by simp [State.accept, hn])
  | case2 | case3 | case4 | case5 => simp [loneTail, State.acceptAll, State.accept, hn]

theorem acceptAll_dcnt_eq_one : (s.acceptAll vs).dcnt = 1 ↔ vs.length % 4 = 1 := by
  rw [← not_iff_not, ← Ne.eq_def (vs.length % 4), ← loneTail_eq_none, loneTail_eq vs hn]
  simp

end

/-! ### A decoder message (R80 to R84) -/

/-- Between two groups of a message that has not failed, under a table without duplicates. -/
structure State.AtGroup (s : State) : Prop where
  distinct : DistinctTable s.fwd
  dcnt : s.dcnt = 0
  dfail : s.dfail = false

theorem State.Inv.atGroup {s : State} (inv : s.Inv) (idle : s.Idle) (distinct : DistinctTable s.fwd) : s.AtGroup := by
  obtain ⟨-, hn, hf⟩ := inv.decoder_clear idle.dopen
  exact ⟨distinct, hn, hf⟩

/-- Symbols that have values are accepted one after the other, wherever the group stands. -/
theorem effects_dsym (syms : List Codepoint) (s : State) (hf : s.dfail = false) (distinct : DistinctTable s.fwd)
    (accepts : ∀ sym ∈ syms, s.Accepts sym) :
    Effects s (syms.map .dsym) (s.acceptAll (syms.map (valueOrZero s.fwd)))
      (s.acceptedBytes (syms.map (valueOrZero s.fwd))) := by
  induction syms generalizing s with
  | nil => exact .nil s
  | cons sym syms ih =>
    rw [List.forall_mem_cons] at accepts
    exact .cons (.dsymAccepted sym _ hf (symbolValue_of_accepts distinct accepts.1))
      (ih (s.accept _) hf distinct accepts.2)

/-- A failed message ignores its symbols (R80). -/
theorem effects_dsym_ignored (syms : List Codepoint) {s : State} (hf : s.dfail = true) (ho : s.dopen = true) :
    Effects s (syms.map .dsym) s [] := by
  have stays : ({ s with dopen := true } : State) = s := by rw [← ho]
  induction syms with
  | nil => exact .nil s
  | cons sym syms ih =>
    have first := Effect.dsymIgnored sym hf
    rw [stays] at first
    exact .cons first ih

theorem effects_decMsg {syms : List Codepoint} {s u v : State} {rs qs : List Response}
    (symbols : Effects s (syms.map .dsym) u rs) (last : Effect u .dend v qs) :
    Effects s (decMsg syms) v (rs ++ qs) :=
  symbols.append (.single last)

/-- The state in which an unknown symbol leaves a strict message, as `Effect.dsymUnknown` has it. -/
def State.fail (s : State) (sym : Codepoint) : State :=
  ({ s with dopen := true, dfail := true } : State).recordError .invalidSymbol (sym.setWidth 32)

theorem fail_closeDecoder (s : State) (sym : Codepoint) :
    (s.fail sym).closeDecoder = s.closeDecoder.recordError .invalidSymbol (sym.setWidth 32) :=
  closeDecoder_recordError ..

/-- From an unknown symbol on, a strict message answers its error and status 1. -/
theorem effects_failing {s : State} {bad : Codepoint} (hf : s.dfail = false) (hv : s.symbolValue bad = none)
    (rest : List Codepoint) :
    Effects s (decMsg (bad :: rest)) (s.closeDecoder.recordError .invalidSymbol (bad.setWidth 32))
      [.ofCause .invalidSymbol, .ofStatus 1] := by
  have failed : (s.fail bad).dfail = true := by simp [State.fail]
  have ignored := effects_dsym_ignored rest failed (by simp [State.fail])
  have last := Effect.dendFailed failed
  rw [fail_closeDecoder] at last
  exact .cons (.dsymUnknown bad hf hv) (effects_decMsg ignored last)

section
variable {syms : List Codepoint} {s : State} (start : s.AtGroup) (accepts : ∀ sym ∈ syms, s.Accepts sym)
include start accepts

/-- The bytes of a message that starts a group (R82). -/
theorem effects_dsym_bytes :
    Effects s (syms.map .dsym) (s.acceptAll (syms.map (valueOrZero s.fwd)))
      ((decodeBytes (syms.map (valueOrZero s.fwd))).map .ofByte) := by
  rw [← acceptedBytes_eq _ start.dcnt]
  exact effects_dsym syms s start.dfail start.distinct accepts

/-- A message with no lone symbol at its end, in either mode. -/
theorem effects_decMsg_whole (whole : syms.length % 4 ≠ 1) :
    Effects s (decMsg syms) s.closeDecoder
      ((decodeBytes (syms.map (valueOrZero s.fwd))).map .ofByte ++ [.ofStatus 0]) := by
  have hn : (s.acceptAll (syms.map (valueOrZero s.fwd))).dcnt ≠ 1 := by
    rwa [Ne, acceptAll_dcnt_eq_one _ start.dcnt, List.length_map]
  have last := Effect.dendWhole ((acceptAll_dfail ..).trans start.dfail) hn
  rw [acceptAll_closeDecoder] at last
  exact effects_decMsg (effects_dsym_bytes start accepts) last

/-- A strict message with a lone symbol at its end; the record is the lone symbol's value. -/
theorem effects_decMsg_truncated (strict : s.mode = .strict) (lone : syms.length % 4 = 1) :
    Effects s (decMsg syms)
      (s.closeDecoder.recordError .truncatedInput
        ((s.acceptAll (syms.map (valueOrZero s.fwd))).dprev.setWidth 32))
      ((decodeBytes (syms.map (valueOrZero s.fwd))).map .ofByte ++ [.ofCause .truncatedInput, .ofStatus 2]) := by
  have hn : (s.acceptAll (syms.map (valueOrZero s.fwd))).dcnt = 1 := by
    rwa [acceptAll_dcnt_eq_one _ start.dcnt, List.length_map]
  have last := Effect.dendTruncated ((acceptAll_dfail ..).trans start.dfail) hn ((acceptAll_mode ..).trans strict)
  rw [closeDecoder_recordError, acceptAll_closeDecoder] at last
  exact effects_decMsg (effects_dsym_bytes start accepts) last

/-- A strict message with an unknown symbol: the symbols after it are ignored. -/
theorem effects_decMsg_unknown (strict : s.mode = .strict) {bad : Codepoint} (missing : ∀ v, tableAt s.fwd v ≠ bad)
    (rest : List Codepoint) :
    Effects s (decMsg (syms ++ bad :: rest)) (s.closeDecoder.recordError .invalidSymbol (bad.setWidth 32))
      ((decodeBytes (syms.map (valueOrZero s.fwd))).map .ofByte ++ [.ofCause .invalidSymbol, .ofStatus 1]) := by
  have missed : (s.acceptAll (syms.map (valueOrZero s.fwd))).symbolValue bad = none :=
    symbolValue_of_strict_miss (by rw [lookup_of_no_match (by rwa [acceptAll_fwd])]) ((acceptAll_mode ..).trans strict)
  have failing := effects_failing ((acceptAll_dfail ..).trans start.dfail) missed rest
  rw [acceptAll_closeDecoder] at failing
  have message : decMsg (syms ++ bad :: rest) = syms.map .dsym ++ decMsg (bad :: rest) := by simp [decMsg]
  exact message ▸ (effects_dsym_bytes start accepts).append failing

end

/-- A lenient message: every symbol has a value, and a lone one gives a byte. -/
theorem effects_decMsg_lenient (syms : List Codepoint) {s : State} (start : s.AtGroup) (lenient : s.mode = .lenient) :
    Effects s (decMsg syms) s.closeDecoder
      ((decodeBytesLenient (syms.map (valueOrZero s.fwd))).map .ofByte ++ [.ofStatus 0]) := by
  have accepts : ∀ sym ∈ syms, s.Accepts sym := fun _ _ => .inl lenient
  have tail := loneTail_eq (syms.map (valueOrZero s.fwd)) start.dcnt
  split at tail
  next hn =>
    have last := Effect.dendLenientTail ((acceptAll_dfail ..).trans start.dfail) hn
      ((acceptAll_mode ..).trans lenient)
    rw [acceptAll_closeDecoder] at last
    rw [decodeBytesLenient_of_some tail, List.map_append, List.append_assoc]
    exact effects_decMsg (effects_dsym_bytes start accepts) last
  next =>
    rw [decodeBytesLenient_of_none tail]
    exact effects_decMsg_whole start accepts (by simpa using (loneTail_eq_none _).1 tail)

theorem hostRun_decMsg {syms : List Codepoint} {s v : State} {rs : List Response} (h : Effects s (decMsg syms) v rs)
    (ready : s.Ready) :
    hostRun (decMsg syms) s = .next ({ v with rspq := [], popped := s.popped ++ s.rspq ++ rs }, rs) :=
  hostRun_of_effects_of_ne_nil h (by simp [decMsg]) ready (decMsg_wellFormed syms)

end Sys2Proof.Machine

/-! The statements of 42_decode.md on whole messages. -/

namespace Sys2Proof.Machine

/-- Settles O28: the message's effects, with and without a lone symbol at the end. -/
theorem strictMessage : Obligations.StrictMessage := by
  intro syms s inv idle params distinct strict known
  refine ⟨by rw [decodeBytes_length, List.length_map], ?_⟩
  have start := inv.atGroup idle distinct
  have accepts : ∀ sym ∈ syms, s.Accepts sym := fun sym hs => .inr (known sym hs)
  have closed := inv.closeDecoder_eq idle.dopen
  by_cases lone : syms.length % 4 = 1
  · have run := hostRun_decMsg (effects_decMsg_truncated start accepts strict lone) (idle.ready params)
    rw [if_pos lone]
    exact ⟨_, run, ⟨by simp [idle.eopen], by simp, by simp [idle.port]⟩, by simp, by simp [strict]⟩
  · have run := hostRun_decMsg (effects_decMsg_whole start accepts lone) (idle.ready params)
    rw [if_neg lone]
    exact ⟨_, run, ⟨idle.eopen, rfl, idle.port⟩, rfl, strict⟩

/-- Settles O29: the effects up to the unknown symbol, after which the message has failed. -/
theorem strictInvalidMessage : Obligations.StrictInvalidMessage := by
  intro good rest bad s inv idle params distinct strict known missing
  refine ⟨by rw [decodeBytes_length, List.length_map], ?_⟩
  have accepts : ∀ sym ∈ good, s.Accepts sym := fun sym hs => .inr (known sym hs)
  have run := hostRun_decMsg (effects_decMsg_unknown (inv.atGroup idle distinct) accepts strict missing rest)
    (idle.ready params)
  exact ⟨_, run, ⟨by simp [idle.eopen], by simp, by simp [idle.port]⟩, by simp, by simp [strict], by simp⟩

/-- Settles O30: the message's effects with every symbol accepted. -/
theorem lenientMessage : Obligations.LenientMessage := by
  intro syms s inv idle params distinct lenient
  have run := hostRun_decMsg (effects_decMsg_lenient syms (inv.atGroup idle distinct) lenient) (idle.ready params)
  refine ⟨by rw [decodeBytesLenient_length, List.length_map], _, run, ⟨idle.eopen, rfl, idle.port⟩, rfl, lenient, rfl⟩

/-- The symbols of an encoder message, decoded under the same table. -/
theorem hostRun_decMsg_encodeValues (bs : List Byte) {fwd : Table} {d : State} (inv : d.Inv) (idle : d.Idle)
    (params : ParamsOk d.params) (distinct : DistinctTable fwd) (same : d.fwd = fwd) :
    ∃ u, hostRun (decMsg ((encodeValues bs).map (tableAt fwd))) d =
      .next (u, bs.map .ofByte ++ [.ofStatus 0]) := by
  subst same
  have accepts : ∀ sym ∈ (encodeValues bs).map (tableAt d.fwd), d.Accepts sym :=
    List.forall_mem_map.2 fun v _ => .inr ⟨v, rfl⟩
  have whole : ((encodeValues bs).map (tableAt d.fwd)).length % 4 ≠ 1 := by
    rw [List.length_map, encodeValues_length]
    exact encodedLength_mod_four_ne_one _
  have values : ((encodeValues bs).map (tableAt d.fwd)).map (valueOrZero d.fwd) = encodeValues bs := by
    simp [Function.comp_def, valueOrZero_tableAt distinct]
  have run := hostRun_decMsg (effects_decMsg_whole (inv.atGroup idle distinct) accepts whole) (idle.ready params)
  rw [values, decodeBytes_encodeValues] at run
  exact ⟨_, run⟩

/-- The symbols an encoder message answers are the table's at the message's values (R71 to R73). -/
theorem hostRun_encMsg (bs : List Byte) {s : State} (inv : s.Inv) (idle : s.Idle) (params : ParamsOk s.params) :
    ∃ p, hostRun (encMsg bs) s =
      .next ({ s with rspq := [], popped := p }, ((encodeValues bs).map (tableAt s.fwd)).map .ofSym) := by
  rw [List.map_map]
  exact ⟨_, (encodeMessage bs s inv idle params).2⟩

/-- Settles O31: the encoder's symbols are the table's at the message's values, which the decoder gives back. -/
theorem roundTrip : Obligations.RoundTrip := by
  intro bs s d inv idle params inv' idle' params' distinct same
  obtain ⟨p, encoded⟩ := hostRun_encMsg bs inv idle params
  obtain ⟨u, decoded⟩ := hostRun_decMsg_encodeValues bs inv' idle' params' distinct same
  exact ⟨_, u, _, encoded, decoded⟩

end Sys2Proof.Machine

/-! SUPPORT. A symbol read back from its text (44_host_functions.md R90, R91), and what the host makes of a message's
responses (R94, R96). -/

namespace Sys2Proof.Machine

/-! ### The payload bits of a symbol (R90) -/

/-- The `n` bits of a symbol from bit `k` on, in place. -/
def bitsAt (c : Codepoint) (n k : Nat) : Codepoint := (c.extractLsb' k n).setWidth 21 <<< k

theorem getLsbD_bitsAt (c : Codepoint) (n k i : Nat) :
    (bitsAt c n k).getLsbD i = (decide (k ≤ i ∧ i < k + n) && c.getLsbD i) := by
  by_cases low : k ≤ i
  · by_cases width : i < 21
    · have inside : i - k < n ↔ i < k + n := by omega
      simp [bitsAt, low, width, inside, show k + (i - k) = i by omega]
    · simp [bitsAt, width, BitVec.getLsbD_of_ge c i (by omega)]
  · simp [bitsAt, low]

/-- Neighbouring bits of a symbol join. -/
theorem bitsAt_or_bitsAt (c : Codepoint) (m n k : Nat) :
    bitsAt c m (k + n) ||| bitsAt c n k = bitsAt c (n + m) k := by
  apply BitVec.eq_of_getLsbD_eq
  intro i _
  have joined : (k + n ≤ i ∧ i < k + n + m) ∨ (k ≤ i ∧ i < k + n) ↔ k ≤ i ∧ i < k + (n + m) := by omega
  rw [BitVec.getLsbD_or, getLsbD_bitsAt, getLsbD_bitsAt, getLsbD_bitsAt, ← Bool.and_or_distrib_right,
    ← Bool.decide_or, decide_eq_decide.2 joined]

/-- A symbol is its low bits where it has no others. -/
theorem bitsAt_zero_of_lt {c : Codepoint} {n : Nat} (h : c.toNat < 2 ^ n) : bitsAt c n 0 = c := by
  apply BitVec.eq_of_getLsbD_eq
  intro i _
  rw [getLsbD_bitsAt]
  by_cases inside : i < n
  · simp [inside]
  · have high : c.getLsbD i = false :=
      Nat.testBit_lt_two_pow (h.trans_le (Nat.pow_le_pow_right (by decide) (by omega)))
    simp [high]

/-! ### The bytes of a text (R90) -/

theorem payload_setWidth {c : Codepoint} (h : c.toNat < 2 ^ 7) : payload 7 0 (c.setWidth 8) = c := by
  rw [payload, BitVec.extractLsb'_setWidth_of_le (by decide)]
  exact bitsAt_zero_of_lt h

theorem payload_lead2 (x : BitVec 5) (k : Nat) : payload 5 k (0xC0#8 ||| x.setWidth 8) = x.setWidth 21 <<< k := by
  have low : ∀ x : BitVec 5, (0xC0#8 ||| x.setWidth 8).extractLsb' 0 5 = x := by decide
  rw [payload, low]

theorem payload_lead3 (x : BitVec 4) (k : Nat) : payload 4 k (0xE0#8 ||| x.setWidth 8) = x.setWidth 21 <<< k := by
  have low : ∀ x : BitVec 4, (0xE0#8 ||| x.setWidth 8).extractLsb' 0 4 = x := by decide
  rw [payload, low]

theorem payload_lead4 (x : BitVec 3) (k : Nat) : payload 3 k (0xF0#8 ||| x.setWidth 8) = x.setWidth 21 <<< k := by
  have low : ∀ x : BitVec 3, (0xF0#8 ||| x.setWidth 8).extractLsb' 0 3 = x := by decide
  rw [payload, low]

theorem payload_contByte (x : BitVec 6) (k : Nat) : payload 6 k (contByte x) = x.setWidth 21 <<< k := by
  have low : ∀ x : BitVec 6, (contByte x).extractLsb' 0 6 = x := by decide
  rw [payload, low]

theorem lead2_range : ∀ x : BitVec 5,
    0x80 ≤ (0xC0#8 ||| x.setWidth 8).toNat ∧ (0xC0#8 ||| x.setWidth 8).toNat < 0xE0 := by decide

theorem lead3_range : ∀ x : BitVec 4,
    0xE0 ≤ (0xE0#8 ||| x.setWidth 8).toNat ∧ (0xE0#8 ||| x.setWidth 8).toNat < 0xF0 := by decide

theorem lead4_range : ∀ x : BitVec 3, 0xF0 ≤ (0xF0#8 ||| x.setWidth 8).toNat := by decide

/-! ### What the first byte of a text says (R91) -/

section
variable {b0 : Byte} (b1 b2 b3 : Byte) (t : List Byte)

theorem runeCandidate_one (h : b0.toNat < 0x80) : runeCandidate (b0 :: t) = some (payload 7 0 b0, 1) := by
  simp [runeCandidate, h]

theorem runeCandidate_two (low : 0x80 ≤ b0.toNat) (high : b0.toNat < 0xE0) :
    runeCandidate (b0 :: b1 :: t) = some (payload 5 6 b0 ||| payload 6 0 b1, 2) := by
  simp [runeCandidate, high, show ¬b0.toNat < 0x80 by omega]

theorem runeCandidate_three (low : 0xE0 ≤ b0.toNat) (high : b0.toNat < 0xF0) :
    runeCandidate (b0 :: b1 :: b2 :: t) = some (payload 4 12 b0 ||| payload 6 6 b1 ||| payload 6 0 b2, 3) := by
  simp [runeCandidate, high, show ¬b0.toNat < 0x80 by omega, show ¬b0.toNat < 0xE0 by omega]

theorem runeCandidate_four (low : 0xF0 ≤ b0.toNat) :
    runeCandidate (b0 :: b1 :: b2 :: b3 :: t) =
      some (payload 3 18 b0 ||| payload 6 12 b1 ||| payload 6 6 b2 ||| payload 6 0 b3, 4) := by
  simp [runeCandidate, show ¬b0.toNat < 0x80 by omega, show ¬b0.toNat < 0xE0 by omega,
    show ¬b0.toNat < 0xF0 by omega]

end

/-- The payload bits of a symbol's text spell the symbol, whatever follows: one case for each length of R90. -/
theorem runeCandidate_utf8 {c : Codepoint} {bs : List Byte} (h : utf8 c = some bs) (t : List Byte) :
    runeCandidate (bs ++ t) = some (c, bs.length) := by
  simp only [utf8] at h
  split at h
  · next one =>
    cases h
    have small : c.toNat < 2 ^ 7 := by omega
    have lead : (c.setWidth 8).toNat < 0x80 := by
      rw [BitVec.toNat_setWidth]
      omega
    exact (runeCandidate_one t lead).trans (by rw [payload_setWidth small]; rfl)
  split at h
  · next two =>
    cases h
    obtain ⟨low, high⟩ := lead2_range (c.extractLsb' 6 5)
    have joined : bitsAt c 5 6 ||| bitsAt c 6 0 = c :=
      (bitsAt_or_bitsAt c 5 6 0).trans (bitsAt_zero_of_lt (n := 11) (by omega))
    refine (runeCandidate_two _ t low high).trans ?_
    rw [payload_lead2, payload_contByte]
    exact congrArg (fun s => some (s, 2)) joined
  split at h
  · cases h
  split at h
  · next three =>
    cases h
    obtain ⟨low, high⟩ := lead3_range (c.extractLsb' 12 4)
    have joined : bitsAt c 4 12 ||| bitsAt c 6 6 ||| bitsAt c 6 0 = c := by
      rw [bitsAt_or_bitsAt c 4 6 6, bitsAt_or_bitsAt c 10 6 0, bitsAt_zero_of_lt (n := 16) (by omega)]
    refine (runeCandidate_three _ _ t low high).trans ?_
    rw [payload_lead3, payload_contByte, payload_contByte]
    exact congrArg (fun s => some (s, 3)) joined
  split at h
  · cases h
    have low := lead4_range (c.extractLsb' 18 3)
    have joined : bitsAt c 3 18 ||| bitsAt c 6 12 ||| bitsAt c 6 6 ||| bitsAt c 6 0 = c := by
      rw [bitsAt_or_bitsAt c 3 6 12, bitsAt_or_bitsAt c 9 6 6, bitsAt_or_bitsAt c 15 6 0,
        bitsAt_zero_of_lt (n := 21) c.isLt]
    refine (runeCandidate_four _ _ _ t low).trans ?_
    rw [payload_lead4, payload_contByte, payload_contByte, payload_contByte]
    exact congrArg (fun s => some (s, 4)) joined
  · cases h

/-! ### Reading a text (R91) -/

theorem decodeRune_utf8 {c : Codepoint} {bs : List Byte} (h : utf8 c = some bs) (t : List Byte) :
    decodeRune (bs ++ t) = some (c, bs.length) := by
  simp [decodeRune, runeCandidate_utf8 h t, h]

theorem symbolsAfter_length (bs t : List Byte) : symbolsAfter bs.length (bs ++ t) = symbols t := by
  induction bs with
  | nil => rfl
  | cons b bs ih => simpa [symbolsAfter] using ih

/-- A text that begins with a symbol's bytes reads as that symbol and the rest. -/
theorem symbols_utf8_append {c : Codepoint} {bs : List Byte} (h : utf8 c = some bs) (t : List Byte) :
    symbols (bs ++ t) = c :: symbols t := by
  have front := decodeRune_utf8 h
  cases bs with
  | nil => cases front []
  | cons b bs =>
    have rune := front t
    simp only [List.cons_append, List.length_cons] at rune
    simp [symbols, symbolsAfter, rune, symbolsAfter_length]

/-! ### What the host makes of a message's responses (R94, R96) -/

theorem textOf_ofSym_cons {c : Codepoint} {bs text : List Byte} {rs : List Response} (hc : utf8 c = some bs)
    (hrs : textOf rs = .ok text) : textOf (.ofSym c :: rs) = .ok (bs ++ text) := by
  simp [textOf, Response.ofSym, hc, hrs]

/-- The text of symbols that have one reads as those symbols. -/
theorem textOf_ofSym {cs : List Codepoint} (encodable : ∀ c ∈ cs, utf8 c ≠ none) :
    ∃ text, textOf (cs.map .ofSym) = .ok text ∧ symbols text = cs := by
  induction cs with
  | nil => exact ⟨[], rfl, rfl⟩
  | cons c cs ih =>
    rw [List.forall_mem_cons] at encodable
    obtain ⟨bs, hc⟩ := Option.ne_none_iff_exists'.1 encodable.1
    obtain ⟨text, hcs, read⟩ := ih encodable.2
    exact ⟨bs ++ text, textOf_ofSym_cons hc hcs, by rw [symbols_utf8_append hc, read]⟩

theorem bytesOf_append (rs qs : List Response) : bytesOf (rs ++ qs) = bytesOf rs ++ bytesOf qs := by
  simp [bytesOf]

theorem bytesOf_ofByte (bs : List Byte) : bytesOf (bs.map .ofByte) = bs := by
  simp [bytesOf, Response.ofByte, List.filter_map, Function.comp_def]

/-- Bytes and a status 0 are a result (R96). -/
theorem decodeResult_ofByte (bs : List Byte) : decodeResult (bs.map .ofByte ++ [.ofStatus 0]) = .ok bs := by
  have bytes : bytesOf (bs.map .ofByte ++ [.ofStatus 0]) = bs := by
    rw [bytesOf_append, bytesOf_ofByte]
    exact List.append_nil bs
  simpa [decodeResult, Response.ofStatus, Response.ofByte] using bytes

theorem hostCall_of_hostRun {α : Type} {is : List Instr} {s t : State} {rs : List Response}
    (h : hostRun is s = .next (t, rs)) (read : List Response → Except HostError α) :
    hostCall is read s = .next (t, read rs) := by
  simp [hostCall, h]

end Sys2Proof.Machine

/-! The statement of 44_host_functions.md that rests on the round trip of messages. -/

namespace Sys2Proof.Machine

/-- Settles O55: the text reads as the symbols of the message, and decoding those gives the bytes back. -/
theorem textRoundTrip : Obligations.TextRoundTrip := by
  intro bs s inv idle params distinct encodable
  obtain ⟨p, encoded⟩ := hostRun_encMsg bs inv idle params
  obtain ⟨text, written, read⟩ := textOf_ofSym (cs := (encodeValues bs).map (tableAt s.fwd))
    (List.forall_mem_map.2 fun v _ => encodable v)
  have between : ({ s with rspq := [], popped := p } : State).Inv :=
    inv.of_queue_fits (Nat.zero_le _) p s.port s.host
  obtain ⟨u, decoded⟩ := hostRun_decMsg_encodeValues bs between ⟨idle.eopen, idle.dopen, idle.port⟩ params distinct rfl
  refine ⟨_, text, u, written ▸ hostCall_of_hostRun encoded textOf, ?_⟩
  rw [decodeString, read, hostCall_of_hostRun decoded, decodeResult_ofByte]

end Sys2Proof.Machine

/-! SUPPORT. What the CSRs read as, and the bit that `CSRW` writes (43_control.md R86, R88). -/

namespace Sys2Proof.Machine

/-- The fields of `STATUS` are disjoint, so that joining them adds their place values (R24, R86). -/
theorem statusWord_eq (s : State) :
    s.statusWord = BitVec.ofNat 32 (s.dcnt.val * 64 + s.ecnt.val * 16 + s.dfail.toNat * 8 + s.dopen.toNat * 4
      + s.eopen.toNat * 2 + s.err.toNat) := by
  have fields : ∀ (dcnt : Fin 4) (ecnt : Fin 3) (dfail dopen eopen err : Bool),
      BitVec.ofNat 32 dcnt.val <<< 6 ||| BitVec.ofNat 32 ecnt.val <<< 4 ||| flagBit dfail <<< 3
        ||| flagBit dopen <<< 2 ||| flagBit eopen <<< 1 ||| flagBit err
      = BitVec.ofNat 32 (dcnt.val * 64 + ecnt.val * 16 + dfail.toNat * 8 + dopen.toNat * 4
        + eopen.toNat * 2 + err.toNat) := by decide
  exact fields s.dcnt s.ecnt s.dfail s.dopen s.eopen s.err

theorem setWidth_modeBit (m : Mode) : (modeBit m).setWidth 32 = if m = .lenient then 1 else 0 := by
  cases m <;> rfl

/-- `imm[0]` is the parity of `imm` (R88). -/
theorem getLsbD_zero_eq_parity (imm : Imm) : imm.getLsbD 0 = decide (imm.toNat % 2 = 1) := by
  rw [← BitVec.testBit_toNat, Nat.testBit_zero]

end Sys2Proof.Machine

/-! The statements of 43_control.md. -/

namespace Sys2Proof.Machine

/-- Settles O34: the read's effect with the value of each CSR, and the three conditions that make a `CSRR` illegal. -/
theorem csrrEffect : Obligations.CsrrEffect := by
  refine ⟨fun s => ?_, fun s => ?_, fun s => exec_of_effect (.csrr rfl), fun s => exec_of_effect (.csrr rfl),
    fun w s hop illegal => runWord_of_illegal ?_ s⟩
  · rw [← setWidth_modeBit]
    exact exec_of_effect (.csrr rfl)
  · rw [← statusWord_eq]
    exact exec_of_effect (.csrr rfl)
  · obtain reserved | data | number := illegal
    · simp [IllegalWord, hop, reserved]
    · simp [IllegalWord, hop, data]
    · simp [IllegalWord, hop, number, -BitVec.extractLsb'_toNat]

/-- Settles O35: the idle write of the mode, `Busy`, `STATUS` by the parity of `imm`, and the two conditions that make a
`CSRW` illegal. -/
theorem csrwEffect : Obligations.CsrwEffect := by
  refine ⟨fun imm s ho hd => ?_, fun w imm s hw => runWord_of_busy hw (.inr (.inr ⟨imm, rfl⟩)),
    fun imm s odd => ?_, fun imm s even => ?_, fun w s hop illegal => runWord_of_illegal ?_ s⟩
  · have write := exec_of_effect (.csrwMode imm ((busy_eq_false s).2 ⟨ho, hd⟩))
    simpa only [getLsbD_zero_eq_parity, modeOfBit, decide_eq_true_eq, List.append_nil] using write
  · have clear : imm.getLsbD 0 = true := by rw [getLsbD_zero_eq_parity, odd]; rfl
    simpa [State.clearError] using exec_of_effect (.csrwClear (s := s) clear)
  · have keep : imm.getLsbD 0 = false := by rw [getLsbD_zero_eq_parity, even]; rfl
    simpa using exec_of_effect (.csrwKeep (s := s) keep)
  · obtain reserved | number := illegal
    · simp [IllegalWord, hop, reserved]
    · simp [IllegalWord, hop, number, -BitVec.extractLsb'_toNat]

/-- Settles O33: the effect closes both messages; the reserved bits of format N. -/
theorem abortEffect : Obligations.AbortEffect := by
  refine ⟨fun s => ?_, fun w s hop hres => runWord_of_illegal (by simp [IllegalWord, hop, hres]) s⟩
  simpa [State.closeEncoder, State.closeDecoder] using exec_of_effect (.abort (s := s))

end Sys2Proof.Machine

/-! SUPPORT. Which symbols have a text, and where none begins (44_host_functions.md R90, R91); what the host makes of a
message's responses (R94, R96), copies into a buffer (R95, R97) and loads as an alphabet (R92). -/

namespace Sys2Proof.Machine

/-! ### The text of a symbol (R90, R91) -/

theorem utf8_eq_none (c : Codepoint) :
    utf8 c = none ↔ (0xD800 ≤ c.toNat ∧ c.toNat ≤ 0xDFFF) ∨ 0x10FFFF < c.toNat := by
  simp only [utf8]
  split_ifs with one two surrogate three four
  · exact iff_of_false nofun (by omega)
  · exact iff_of_false nofun (by omega)
  · exact iff_of_true rfl (.inl surrogate)
  · exact iff_of_false nofun (by omega)
  · exact iff_of_false nofun (by omega)
  · exact iff_of_true rfl (.inr (by omega))

/-- The text of value `v` under the standard alphabet: the last byte counts through it. -/
def standardText (v : Value) : List Byte := [0xF0#8, 0x9F#8, 0x98#8, 0x80#8 + v.setWidth 8]

theorem utf8_standard : ∀ v : Value, utf8 (0x1F600#21 + v.setWidth 21) = some (standardText v) := by decide

theorem tableAt_defaultAlphabet (v : Value) : tableAt Config.defaultAlphabet v = 0x1F600#21 + v.setWidth 21 := by
  apply BitVec.eq_of_toNat_eq
  rw [toNat_tableAt_defaultAlphabet]
  bv_omega

theorem decodeRune_eq_none {t : List Byte} (ill : ∀ (c : Codepoint) (n : Nat), utf8 c ≠ some (t.take n)) :
    decodeRune t = none := by
  unfold decodeRune
  split
  · exact if_neg (ill _ _)
  · rfl

/-! ### The responses of a message (R94, R96) -/

theorem textOf_map_ofSym {sym : Value → Codepoint} {text : Value → List Byte}
    (encodes : ∀ v, utf8 (sym v) = some (text v)) (vs : List Value) :
    textOf ((vs.map sym).map .ofSym) = .ok (vs.flatMap text) := by
  induction vs with
  | nil => rfl
  | cons v vs ih => exact textOf_ofSym_cons (encodes v) ih

/-- Nothing of a message is kept whose status is not 0 (R118). -/
theorem decodeResult_concat {status : BitVec 4} (failed : status ≠ 0) {rs : List Response}
    (items : ∀ r ∈ rs, r.kind = .byte ∨ r.kind = .err) :
    decodeResult (rs ++ [.ofStatus status]) = decodeResult [.ofStatus status] := by
  have kinds : rs.all (fun r => r.kind == .byte || r.kind == .err) = true := by simpa using items
  have nonzero : (Response.ofStatus status).data.toNat ≠ 0 := by
    simp only [Response.ofStatus]
    bv_omega
  simp only [decodeResult, List.getLast?_concat, List.getLast?_singleton, List.dropLast_concat, List.dropLast_singleton,
    List.all_nil, kinds]
  generalize (Response.ofStatus status).data.toNat = n at nonzero
  match n, nonzero with
  | 1, _ => rfl
  | 2, _ => rfl
  | _ + 3, _ => rfl

theorem decodeResult_ofCause {status : BitVec 4} (failed : status ≠ 0) (bs : List Byte) (c : Cause) :
    decodeResult (bs.map .ofByte ++ [.ofCause c, .ofStatus status]) = decodeResult [.ofStatus status] := by
  rw [List.append_cons]
  refine decodeResult_concat failed ?_
  simp [Response.ofByte, Response.ofCause, or_imp, forall_and]

theorem hostCall_eq_next {α : Type} {is : List Instr} {read : List Response → Except HostError α} {s t : State}
    {result : Except HostError α} (h : hostCall is read s = .next (t, result)) :
    ∃ rs, hostRun is s = .next (t, rs) ∧ read rs = result := by
  unfold hostCall at h
  split at h
  next run =>
    cases h
    exact ⟨_, run, rfl⟩
  all_goals cases h

/-- A message that is not all known has a first unknown symbol. -/
theorem exists_first_unknown {fwd : Table} {syms : List Codepoint}
    (unknown : ∃ sym ∈ syms, ∀ v, tableAt fwd v ≠ sym) :
    ∃ good bad rest, syms = good ++ bad :: rest ∧ (∀ sym ∈ good, ∃ v, tableAt fwd v = sym) ∧
      ∀ v, tableAt fwd v ≠ bad := by
  induction syms with
  | nil => simp at unknown
  | cons sym syms ih =>
    by_cases known : ∃ v, tableAt fwd v = sym
    · have later := ((List.exists_mem_cons_iff ..).1 unknown).resolve_left fun missing => known.elim missing
      obtain ⟨good, bad, rest, rfl, first, missing⟩ := ih later
      exact ⟨sym :: good, bad, rest, rfl, List.forall_mem_cons.2 ⟨known, first⟩, missing⟩
    · exact ⟨[], sym, syms, rfl, by simp, not_exists.1 known⟩

/-! ### Copying into a buffer (R95, R97) -/

theorem copyInto_spec (dst t : List Byte) :
    (copyInto dst t).length = dst.length ∧
      (copyInto dst t).take (min dst.length t.length) = t.take (min dst.length t.length) ∧
      (copyInto dst t).drop (min dst.length t.length) = dst.drop (min dst.length t.length) := by
  have front : (t.take dst.length).length = min dst.length t.length := List.length_take
  refine ⟨?_, ?_, ?_⟩
  · rw [copyInto, List.length_append, front, List.length_drop]
    omega
  · rw [copyInto, List.take_left' front, List.take_eq_take_min, Nat.min_comm]
  · rw [copyInto, List.drop_left' front]
    cases Nat.le_total dst.length t.length with
    | inl small => rw [Nat.min_eq_left small, List.drop_length, List.drop_of_length_le small]
    | inr large => rw [Nat.min_eq_right large]

/-- `Encode` runs the commands of `EncodeToString`. -/
theorem encodeInto_of_encodeToString {src : List Byte} {s t : State} {r : Except HostError (List Byte)}
    (h : encodeToString src s = .next (t, r)) (dst : List Byte) :
    encodeInto dst src s = .next (t, r.map (copyInto dst)) := by
  obtain ⟨rs, run, rfl⟩ := hostCall_eq_next h
  exact hostCall_of_hostRun run _

/-- `Decode` runs the commands of `DecodeString`. -/
theorem decodeInto_of_decodeString {src : List Byte} {s t : State} {r : Except HostError (List Byte)}
    (h : decodeString src s = .next (t, r)) (dst : List Byte) :
    decodeInto dst src s = .next (t, .ok (decodeCopy dst r)) := by
  obtain ⟨rs, run, rfl⟩ := hostCall_eq_next h
  exact hostCall_of_hostRun run _

/-! ### Loading an alphabet (R92) -/

/-- `TBLLOAD` of the first symbols of an alphabet writes their entries, keeps the others, and answers nothing. -/
theorem effects_tblLoad {s : State} (closed : s.busy = false) (syms : List Codepoint) (fits : syms.length ≤ 64) :
    ∃ fwd, Effects s (syms.mapIdx fun i sym => .tblw (BitVec.ofNat 6 i) sym) { s with fwd := fwd } [] ∧
      ∀ v : Value, tableAt fwd v = syms[v.toNat]?.getD (tableAt s.fwd v) := by
  induction syms using List.reverseRecOn with
  | nil => exact ⟨s.fwd, .nil s, fun v => rfl⟩
  | append_singleton syms sym ih =>
    rw [List.length_append, List.length_singleton] at fits
    obtain ⟨fwd, run, entries⟩ := ih (by omega)
    refine ⟨tableSet fwd (BitVec.ofNat 6 syms.length) sym, ?_, fun v => ?_⟩
    · rw [List.mapIdx_concat]
      exact run.append (.single (.tblw _ _ closed))
    · have here : BitVec.ofNat 6 syms.length = v ↔ v.toNat = syms.length := by bv_omega
      simp only [tableAt_tableSet, entries, here]
      split_ifs with last
      · simp [last]
      · by_cases old : v.toNat < syms.length
        · rw [List.getElem?_append_left old]
        · rw [List.getElem?_eq_none (by omega), List.getElem?_eq_none (by simp; omega)]

theorem newEncoding_of_hostRun {alphabet : List Codepoint} (full : alphabet.length = 64) {s t : State}
    (run : hostRun (alphabet.mapIdx fun i sym => .tblw (BitVec.ofNat 6 i) sym) s = .next (t, [])) :
    newEncoding alphabet s = .next (t, .ok ()) := by
  simp [newEncoding, tblLoad, full, hostCall_of_hostRun run]

end Sys2Proof.Machine

/-! The statements of 44_host_functions.md on texts, buffers and alphabets. -/

namespace Sys2Proof.Machine

/-- Settles O53: `utf8` has no bytes in two of its branches; the standard alphabet is 64 symbols. -/
theorem utf8OfSymbols : Obligations.Utf8OfSymbols := ⟨utf8_eq_none, utf8_standard⟩

/-- Settles O54: symbol by symbol; and a byte at which no rune begins is skipped. -/
theorem symbolsOfText : Obligations.SymbolsOfText := by
  refine ⟨fun ps texts => ?_, fun b t ill => ?_⟩
  · induction ps with
    | nil => rfl
    | cons p ps ih =>
      rw [List.forall_mem_cons] at texts
      simp [symbols_utf8_append texts.1, ih texts.2]
  · simp [symbols, symbolsAfter, decodeRune_eq_none ill]

/-- Settles O56: each of the message's symbols is four bytes of text. -/
theorem standardTextLength : Obligations.StandardTextLength := by
  intro bs s inv idle params standard
  obtain ⟨p, run⟩ := hostRun_encMsg bs inv idle params
  have encodes : ∀ v, utf8 (tableAt s.fwd v) = some (standardText v) := fun v => by
    rw [standard, tableAt_defaultAlphabet, utf8_standard]
  have written := textOf_map_ofSym encodes (encodeValues bs)
  refine ⟨_, _, written ▸ hostCall_of_hostRun run textOf, ?_⟩
  simp [List.length_flatMap, standardText, encodeValues_length, Nat.mul_comm]

/-- Settles O57: `Encode` copies the text of `EncodeToString`. -/
theorem encodeTruncates : Obligations.EncodeTruncates := fun dst _ text _ _ h =>
  ⟨copyInto dst text, encodeInto_of_encodeToString h dst, copyInto_spec dst text⟩

/-- Settles O58: 64 table writes with no message open, after which every entry is the alphabet's. -/
theorem newEncodingLoadsTable : Obligations.NewEncodingLoadsTable := by
  refine ⟨fun alphabet s other => by simp [newEncoding, tblLoad, other], fun alphabet s full idle params => ?_⟩
  have closed := (busy_eq_false s).2 ⟨idle.eopen, idle.dopen⟩
  obtain ⟨fwd, writes, entries⟩ := effects_tblLoad closed alphabet full.le
  have nonempty : alphabet ≠ [] := List.ne_nil_of_length_pos (by omega)
  have run := hostRun_of_effects_of_ne_nil writes (by simpa using nonempty) (idle.ready params) fun i hi => by
    obtain ⟨_, _, rfl⟩ := List.mem_mapIdx.1 hi
    rfl
  refine ⟨_, newEncoding_of_hostRun full run, rfl, ⟨idle.eopen, idle.dopen, idle.port⟩, fun v => ?_⟩
  have inside : v.toNat < alphabet.length := full ▸ v.isLt
  simp [entries, inside]

/-- Settles O59: the run of each kind of message, and what its last response says. -/
theorem decodeStringResults : Obligations.DecodeStringResults := by
  intro text s inv idle params distinct
  have start := inv.atGroup idle distinct
  have ready := idle.ready params
  refine ⟨fun strict known whole => ?_, fun strict known lone => ?_, fun strict unknown => ?_, fun lenient => ?_⟩
  · have run := hostRun_decMsg (effects_decMsg_whole start (fun sym hs => .inr (known sym hs)) whole) ready
    exact ⟨_, decodeResult_ofByte _ ▸ hostCall_of_hostRun run decodeResult⟩
  · have run := hostRun_decMsg
      (effects_decMsg_truncated start (fun sym hs => .inr (known sym hs)) strict lone) ready
    exact ⟨_, (hostCall_of_hostRun run decodeResult).trans (by rw [decodeResult_ofCause (by decide)]; rfl)⟩
  · obtain ⟨good, bad, rest, parts, known, missing⟩ := exists_first_unknown unknown
    have run := hostRun_decMsg
      (effects_decMsg_unknown start (fun sym hs => .inr (known sym hs)) strict missing rest) ready
    rw [← parts] at run
    exact ⟨_, (hostCall_of_hostRun run decodeResult).trans (by rw [decodeResult_ofCause (by decide)]; rfl)⟩
  · have run := hostRun_decMsg (effects_decMsg_lenient (symbols text) start lenient) ready
    exact ⟨_, decodeResult_ofByte _ ▸ hostCall_of_hostRun run decodeResult⟩

/-- Settles O60: `Decode` copies the bytes of `DecodeString` where there is no error. -/
theorem decodeCopies : Obligations.DecodeCopies :=
  ⟨fun dst _ _ _ _ h => decodeInto_of_decodeString h dst,
    fun dst _ b _ _ h => ⟨copyInto dst b, decodeInto_of_decodeString h dst, copyInto_spec dst b⟩⟩

end Sys2Proof.Machine

/-! SUPPORT. The errors of a command: at most one, and what it takes to raise it (60_exceptions.md R99, R103, R104). -/

namespace Sys2Proof.Machine

/-! ### The errors among some responses -/

theorem ofCause_injective : Function.Injective Response.ofCause := by
  rintro (_ | _ | _ | _) (_ | _ | _ | _) <;> decide

theorem errorsIn_ofSym (fwd : Table) (vs : List Value) :
    errorsIn (vs.map fun v => .ofSym (tableAt fwd v)) = [] := by
  simp [errorsIn, Response.ofSym]

theorem errorsIn_completedByte (s : State) (v : Value) : errorsIn (s.completedByte v) = [] := by
  unfold State.completedByte
  split <;> rfl

/-- The `ERR` response of a cause is an answer exactly when it is an error among the answers. -/
theorem ofCause_mem_errorsIn {c : Cause} {rs : List Response} : .ofCause c ∈ errorsIn rs ↔ .ofCause c ∈ rs := by
  simp [errorsIn, Response.ofCause]

/-! ### What raises an error -/

/-- What must hold for command `i`, found at `s`, to raise an error of each cause (R99, R102, R103). -/
def State.MayRaise (s : State) (i : Instr) : Cause → Prop
  | .invalidSymbol => s.mode = .strict ∧ ∃ sym, i = .dsym sym
  | .truncatedInput => s.mode = .strict ∧ i = .dend ∧ s.dfail = false
  | .illegalCommand => i.wellFormed = false
  | .busy => s.busy = true ∧ NeedsIdle i

/-- The encoder's commands raise no error in either mode (R103). -/
theorem not_mayRaise_of_encoder {i : Instr} (hi : (∃ b, i = .ebyte b) ∨ i = .eend) (s : State) (c : Cause) :
    ¬ s.MayRaise i c := by
  cases c with
  | invalidSymbol =>
    rintro ⟨-, sym, rfl⟩
    simp at hi
  | truncatedInput =>
    rintro ⟨-, rfl, -⟩
    simp at hi
  | illegalCommand => obtain ⟨b, rfl⟩ | rfl := hi <;> simp [State.MayRaise, Instr.wellFormed]
  | busy =>
    rintro ⟨-, needs⟩
    obtain ⟨b, rfl⟩ | rfl := hi <;> simp [NeedsIdle] at needs

/-- The answers of a command hold no error, or the one of a cause it may raise. -/
theorem Effect.errors {i : Instr} {s u : State} {rs : List Response} (h : Effect s i u rs) :
    errorsIn rs = [] ∨ ∃ c, s.MayRaise i c ∧ errorsIn rs = [.ofCause c] := by
  cases h with
  | busy hi hb => exact .inr ⟨.busy, ⟨hb, hi⟩, rfl⟩
  | illegal hi => exact .inr ⟨.illegalCommand, hi, rfl⟩
  | dsymUnknown sym hf hv =>
    exact .inr ⟨.invalidSymbol, ⟨strict_of_symbolValue_eq_none hv, sym, rfl⟩, rfl⟩
  | dendTruncated hf hn hm => exact .inr ⟨.truncatedInput, ⟨hm, rfl, hf⟩, rfl⟩
  | ebyteThird => exact .inl (errorsIn_ofSym _ _)
  | eend => exact .inl (errorsIn_ofSym _ _)
  | dsymAccepted sym v => exact .inl (errorsIn_completedByte s v)
  | _ => exact .inl rfl

section
variable {i : Instr} {s t : State} {rs : List Response}

/-- `Effect.errors` for `exec`, the answers being what it appends to the queue. -/
theorem exec_errors (h : exec i s = .next t) (hq : t.rspq = s.rspq ++ rs) :
    errorsIn rs = [] ∨ ∃ c, s.MayRaise i c ∧ errorsIn rs = [.ofCause c] := by
  obtain ⟨u, qs, effect, rfl⟩ := exec_cases h
  obtain rfl : qs = rs := List.append_cancel_left hq
  exact effect.errors

/-- An `ERR` response answered is of a cause that the command may raise. -/
theorem mayRaise_of_ofCause_mem {c : Cause} (h : exec i s = .next t) (hq : t.rspq = s.rspq ++ rs)
    (answered : .ofCause c ∈ rs) : s.MayRaise i c := by
  rw [← ofCause_mem_errorsIn] at answered
  obtain quiet | ⟨d, may, one⟩ := exec_errors h hq
  · simp [quiet] at answered
  · rw [one, List.mem_singleton] at answered
    exact ofCause_injective answered ▸ may

end

/-- A word answers no error or one (R104). -/
theorem runWord_errors_length_le {w : Word} {s t : State} {rs : List Response} (h : runWord w s = .next t)
    (hq : t.rspq = s.rspq ++ rs) : (errorsIn rs).length ≤ 1 := by
  obtain ⟨i, -, run⟩ | ⟨e, -, run⟩ := runWord_cases w s
  · obtain quiet | ⟨c, -, one⟩ := exec_errors (run ▸ h) hq
    · simp [quiet]
    · simp [one]
  · rw [h] at run
    cases run
    obtain rfl : [.ofCause .illegalCommand] = rs := List.append_cancel_left hq
    exact le_rfl

/-- `DEND` answers its status last and closes the decoder's message alone (R81). -/
theorem effect_dend (s : State) :
    ∃ u rs status, Effect s .dend u (rs ++ [.ofStatus status]) ∧ u.dopen = false ∧ u.eopen = s.eopen := by
  obtain ⟨hf, -⟩ | ⟨hf, hn, hm, -⟩ | ⟨hf, hn, hm, -⟩ | ⟨hf, hn, -⟩ := settleTail_cases s
  · exact ⟨_, [], _, .dendFailed hf, rfl, rfl⟩
  · exact ⟨_, [_], _, .dendTruncated hf hn hm, rfl, by simp⟩
  · exact ⟨_, [_], _, .dendLenientTail hf hn hm, rfl, rfl⟩
  · exact ⟨_, [], _, .dendWhole hf hn, rfl, rfl⟩

end Sys2Proof.Machine

/-! The statements of 60_exceptions.md. -/

namespace Sys2Proof.Machine

/-- Settles O36: the record with `ERR` 0 and with `ERR` 1, and the effect every command has. -/
theorem errorProcedure : Obligations.ErrorProcedure := by
  refine ⟨rfl, fun c info s clear => ?_, fun c info s raised => ?_, fun c info s i => ?_⟩
  · simp [report_eq_recordError, State.recordError, clear, Response.ofCause]
  · simp [report_eq_recordError, State.recordError, raised, Response.ofCause]
  · obtain ⟨u, rs, effect⟩ := effect_exists i (s.report c info)
    exact ⟨_, exec_of_effect effect⟩

/-- Settles O37: `Busy` is raised by the commands that need no message open (`mayRaise_of_ofCause_mem`), and each of the
three closing commands has an effect that says which message it closes. -/
theorem busyRule : Obligations.BusyRule := by
  refine ⟨fun w i s hw hi => runWord_of_busy hw hi, fun i s t rs h hq answered => ?_,
    fun s => ⟨_, exec_of_effect .eend, rfl, rfl⟩, fun s => ?_, fun s => ⟨_, exec_of_effect .abort, rfl, rfl⟩⟩
  · obtain ⟨hb, hi⟩ := mayRaise_of_ofCause_mem (c := .busy) h hq answered
    exact ⟨(busy_eq_true s).1 hb, hi⟩
  · obtain ⟨u, rs, status, effect, closed, kept⟩ := effect_dend s
    exact ⟨_, exec_of_effect effect, closed, kept⟩

/-- Settles O38: the decode errors need strict mode, and no cause names an encoder command. -/
theorem errorsByMode : Obligations.ErrorsByMode := by
  refine ⟨fun i s t rs lenient h hq => ⟨fun answered => ?_, fun answered => ?_⟩, fun i s t rs hi h hq => ?_,
    fun _ w s _ illegal => runWord_of_illegal illegal s, fun _ w i s _ hw hi => runWord_of_busy hw hi⟩
  · obtain ⟨strict, -⟩ := mayRaise_of_ofCause_mem (c := .invalidSymbol) h hq answered
    cases strict.symm.trans lenient
  · obtain ⟨strict, -⟩ := mayRaise_of_ofCause_mem (c := .truncatedInput) h hq answered
    cases strict.symm.trans lenient
  · obtain quiet | ⟨c, may, -⟩ := exec_errors h hq
    · exact quiet
    · exact absurd may (not_mayRaise_of_encoder hi s c)

/-- Settles O39: `Effect.errors` for each word and command, what an illegal word runs, and the last answer of `DEND`. -/
theorem atMostOneError : Obligations.AtMostOneError := by
  refine ⟨fun w s t rs => runWord_errors_length_le, fun w s illegal => runWord_of_illegal illegal s,
    fun i s t rs h hq => ⟨fun answered => ?_, fun answered => ?_⟩, fun s => ?_⟩
  · exact (mayRaise_of_ofCause_mem (c := .invalidSymbol) h hq answered).2
  · exact (mayRaise_of_ofCause_mem (c := .truncatedInput) h hq answered).2
  · obtain ⟨u, rs, status, effect, -⟩ := effect_dend s
    exact ⟨_, rs, _, exec_of_effect effect, (List.append_assoc ..).symm⟩

end Sys2Proof.Machine

/-! SUPPORT. Whose turn a step is, without a word that can be accepted (70_reset_and_hazards.md R112, R116, R117), and how
far an accepted word fills the queue. -/

namespace Sys2Proof.Machine

theorem step_of_empty_port {s : State} (empty : s.port = none) : step s = hostTurn s := by
  simp [step, portStep, empty]

/-- Without four free slots the word at the port is held (R116). -/
theorem step_of_held {s : State} (waiting : s.port ≠ none) (full : s.params.rspqDepth < s.rspq.length + 4) :
    step s = heldTurn s := by
  obtain ⟨w, hw⟩ := Option.ne_none_iff_exists'.1 waiting
  have noRoom : ¬ s.hasRoom = true := mt (hasRoom_iff s).1 (by omega)
  simp [step, portStep, hw, noRoom]

/-- An action the host may take between commands and while a command is held is taken at either time (R112, R117). -/
theorem step_of_turn {s : State} (turn : s.port = none ∨ s.params.rspqDepth < s.rspq.length + 4)
    (same : heldTurn s = hostTurn s) : step s = hostTurn s := by
  by_cases empty : s.port = none
  · exact step_of_empty_port empty
  · exact (step_of_held empty (turn.resolve_left empty)).trans same

theorem step_of_pop {s : State} {rest : List HostAction} (hh : s.host = .pop :: rest)
    (turn : s.port = none ∨ s.params.rspqDepth < s.rspq.length + 4) : step s = hostPop { s with host := rest } := by
  rw [step_of_turn turn (by simp [heldTurn, hostTurn, hh])]
  simp [hostTurn, hh]

theorem step_of_reset {s : State} {rest : List HostAction} (hh : s.host = .reset :: rest)
    (turn : s.port = none ∨ s.params.rspqDepth < s.rspq.length + 4) :
    step s = .next ({ s with host := rest } : State).hostReset := by
  rw [step_of_turn turn (by simp [heldTurn, hostTurn, hh])]
  simp [hostTurn, hh]

/-- Only a pop or a reset frees a held port (93_implementation_defined.md I9). -/
theorem heldTurn_stuck {s : State} (h : ∀ rest, s.host ≠ .pop :: rest ∧ s.host ≠ .reset :: rest) :
    heldTurn s = .fault .portHung := by
  unfold heldTurn
  split
  · rfl
  · rfl
  · exact absurd ‹_› (h _).1
  · exact absurd ‹_› (h _).2

/-- An accepted word appends at most four responses and leaves the parameters (R15, R30, R101). -/
theorem runWord_appends {w : Word} {s t : State} (h : runWord w s = .next t) :
    ∃ rs, t.rspq = s.rspq ++ rs ∧ rs.length ≤ 4 ∧ t.params = s.params := by
  obtain ⟨i, u, rs, -, effect, rfl⟩ | rfl := runWord_next h
  · exact ⟨rs, rfl, effect.length_le, (exec_outside (exec_of_effect effect)).1⟩
  · exact ⟨[.ofCause .illegalCommand], rfl, by simp, State.recordError_params ..⟩

end Sys2Proof.Machine

/-! The statements of 70_reset_and_hazards.md. -/

namespace Sys2Proof.Machine

/-- Settles O9: acceptance by `step_of_room`, the held moves by `step_cases` and `heldTurn_stuck`, the fit by
`runWord_appends`. -/
theorem holdRule : Obligations.HoldRule := by
  refine ⟨fun s w => step_of_room, fun s t waiting full h => ?_, fun s waiting full stuck => ?_,
    fun w s t room h => ?_⟩
  · obtain ⟨w, -, room, -⟩ | ⟨empty, -⟩ | ⟨w, rest, empty, -⟩ | ⟨r, q, rest, -, pop⟩ | ⟨rest, -, reset⟩ := step_cases h
    · omega
    · exact absurd empty waiting
    · exact absurd empty waiting
    · exact .inl ⟨r, q, rest, pop⟩
    · exact .inr ⟨rest, reset⟩
  · exact (step_of_held waiting full).trans (heldTurn_stuck stuck)
  · obtain ⟨rs, queue, four, params⟩ := runWord_appends h
    rw [queue, params, List.length_append]
    omega

/-- Settles O6: the fields of `State.resetWith`, and the default alphabet's entries. -/
theorem resetValues : Obligations.ResetValues :=
  ⟨fun _ => ⟨rfl, rfl, rfl, rfl, rfl, rfl, rfl, rfl, rfl, rfl, rfl, rfl, rfl⟩, rfl, tableAt_defaultAlphabet⟩

/-- Settles O7, by `step_of_reset`. -/
theorem hostResetRule : Obligations.HostResetRule := fun _ _ hh turn => step_of_reset hh turn

/-- Settles O10: the step is the pop (`step_of_pop`), which has a head to take or not. -/
theorem hostPopRule : Obligations.HostPopRule := by
  refine ⟨fun s r q rest hh hq turn => ?_, fun s rest hh hq empty => ?_⟩
  · exact (step_of_pop hh turn).trans ((hostPop_next _ _).2 ⟨r, q, hq, rfl⟩)
  · rw [step_of_pop hh (.inl empty)]
    simp [hostPop, hq]

end Sys2Proof.Machine
